-- ==== Sys2Proof/Word.lean ====
section
/-! DEFINITION. The two word types of the machine (00_scope R8): `u8` and `u16`. Every helper on them stands in
Sys2Proof/Machine/Bits.lean. -/

namespace Sys2Proof

/-- `u8`: a byte, bit 0 least significant. -/
abbrev Byte := BitVec 8

/-- `u16`: a 16-bit register or CPU address. -/
abbrev Word := BitVec 16

end Sys2Proof
end

