-- ==== Sys2Proof/Machine/Bits.lean ====
section
/-! DEFINITION. Bit-field, sign-extension and byte-order helpers (00_scope R8, 20_memory R85, 10_state R10). -/

namespace Sys2Proof

/-- `hi(v)`, bits 15:8 (00_scope R8). -/
def hi (v : Word) : Byte := v.extractLsb' 8 8

/-- `lo(v)`, bits 7:0 (00_scope R8). -/
def lo (v : Word) : Byte := v.extractLsb' 0 8

/-- `{h, l}`: `h` is the more significant byte (00_scope R8). -/
def join (h l : Byte) : Word := h ++ l

/-- `sext_16(e)` (00_scope R8). -/
def sext16 (e : Byte) : Word := e.signExtend 16

/-- `parity(v)`: true when `v` has an even number of 1 bits (00_scope R8). -/
def parity (v : Byte) : Bool :=
  !(v.getLsbD 0 ^^ v.getLsbD 1 ^^ v.getLsbD 2 ^^ v.getLsbD 3 ^^ v.getLsbD 4 ^^ v.getLsbD 5 ^^ v.getLsbD 6 ^^ v.getLsbD 7)

/-- The four low bits of a byte. -/
def lowNibble (v : Byte) : BitVec 4 := v.extractLsb' 0 4

/-- The four high bits of a byte. -/
def highNibble (v : Byte) : BitVec 4 := v.extractLsb' 4 4

/-- `bank(a) = a[15:14]` (20_memory R61). -/
def bankOf (a : Word) : BitVec 2 := a.extractLsb' 14 2

/-- `offset(a) = a[13:0]` (20_memory R61). -/
def offsetOf (a : Word) : Nat := a.toNat % 16384

/-- The low 12 bits of a CPU address, which the flash sequencer compares (20_memory R102). -/
def low12 (a : Word) : BitVec 12 := a.extractLsb' 0 12

/-- `{ R[7], (R[6:0] + n)[6:0] }`: the refresh register advanced by `n` (10_state R18). -/
def refreshBy (n : Nat) (r : Byte) : Byte :=
  r.extractLsb' 7 1 ++ (r.extractLsb' 0 7 + BitVec.ofNat 7 n)

/-- Byte `k` (from the least significant) of a number: how a table word's bits are laid out in bytes. -/
def byteOf (w : Nat) (k : Nat) : Byte := BitVec.ofNat 8 (w / 2 ^ (8 * k))

end Sys2Proof
end

