-- ==== Sys2Proof/Syntax.lean ====
section
/-! DEFINITION. The instructions, as syntax: one constructor of `Instr` per mnemonic of spec/opcode_table.json.
Rows of the table that share a mnemonic differ only in the prefix states in which a register value is allowed;
Decode.lean enforces that. Operand bytes are carried whole: `n`, `d`, `e` a byte, `nn` a word. -/

namespace Sys2Proof

/-- The 8-bit register field `r[i]` (30_encoding R165); field value 6 is `(HL)` and names no register. -/
inductive Reg8 where
  | b | c | d | e | h | l | a
  deriving DecidableEq, Repr

/-- The pair fields `dd[p]` and `ss[p]` (30_encoding R166). -/
inductive Pair where
  | bc | de | hl | sp
  deriving DecidableEq, Repr

/-- The pair field `qq[p]` of PUSH and POP (30_encoding R166). -/
inductive QPair where
  | bc | de | hl | af
  deriving DecidableEq, Repr

/-- The pair fields `pp[p]` (ADD IX) and `rr[p]` (ADD IY): value 2 is the index register itself (30_encoding R166). -/
inductive XPair where
  | bc | de | xy | sp
  deriving DecidableEq, Repr

/-- The condition field `cc` (30_encoding R167). -/
inductive Cond where
  | nz | z | nc | c | po | pe | p | m
  deriving DecidableEq, Repr

/-- A half of an index register: `XYH` or `XYL` (10_state R13). -/
inductive Half where
  | hi | lo
  deriving DecidableEq, Repr

/-- An index register, `XY` of the spec's notation (00_scope R8). -/
inductive Index where
  | ix | iy
  deriving DecidableEq, Repr

/-- The current index prefix (10_state R27). -/
inductive Pfx where
  | none | dd | fd
  deriving DecidableEq, Repr

/-- The eight accumulator operations `alu[y]` (30_encoding R168). -/
inductive AluOp where
  | add | adc | sub | sbc | and | xor | or | cp
  deriving DecidableEq, Repr

/-- The eight rotates and shifts `rot[y]` (30_encoding R168). -/
inductive RotOp where
  | rlc | rrc | rl | rr | sla | sra | sll | srl
  deriving DecidableEq, Repr

/-- One constructor per mnemonic of the opcode table, in the table's order: first those with fields, then those without.
An argument `p : Reg8` of the index-half loads reads field values 4 and 5 as `XYH` and `XYL` (40_load8 R215).
An argument named `x`, `y` or `z` is a field of an undocumented copy that the instruction's effect does not use. -/
inductive Instr where
  /-- `DJNZ e` (48_jump_call_return R459). -/
  | djnz (e : Byte)
  /-- `JR e` (48_jump_call_return R452). -/
  | jr (e : Byte)
  /-- `JR NZ,e` (48_jump_call_return R456). -/
  | jrNz (e : Byte)
  /-- `JR Z,e` (48_jump_call_return R455). -/
  | jrZ (e : Byte)
  /-- `JR NC,e` (48_jump_call_return R454). -/
  | jrNc (e : Byte)
  /-- `JR C,e` (48_jump_call_return R453). -/
  | jrC (e : Byte)
  /-- `LD dd,nn` (41_load16 R241). -/
  | ldDdNn (p : Pair) (nn : Word)
  /-- `LD HL,nn` (41_load16 R241). -/
  | ldHlNn (nn : Word)
  /-- `LD IX,nn` (41_load16 R242). -/
  | ldIxNn (nn : Word)
  /-- `LD IY,nn` (41_load16 R242). -/
  | ldIyNn (nn : Word)
  /-- `ADD HL,ss` (45_arith16 R370). -/
  | addHlSs (p : Pair)
  /-- `ADD IX,pp` (45_arith16 R373). -/
  | addIxPp (p : XPair)
  /-- `ADD IY,rr` (45_arith16 R373). -/
  | addIyRr (p : XPair)
  /-- `LD (nn),HL` (41_load16 R246). -/
  | ldMemNnHl (nn : Word)
  /-- `LD (nn),IX` (41_load16 R248). -/
  | ldMemNnIx (nn : Word)
  /-- `LD (nn),IY` (41_load16 R248). -/
  | ldMemNnIy (nn : Word)
  /-- `LD (nn),A` (40_load8 R214). -/
  | ldMemNnA (nn : Word)
  /-- `LD HL,(nn)` (41_load16 R243). -/
  | ldHlMemNn (nn : Word)
  /-- `LD IX,(nn)` (41_load16 R245). -/
  | ldIxMemNn (nn : Word)
  /-- `LD IY,(nn)` (41_load16 R245). -/
  | ldIyMemNn (nn : Word)
  /-- `LD A,(nn)` (40_load8 R211). -/
  | ldAMemNn (nn : Word)
  /-- `INC ss` (45_arith16 R374). -/
  | incSs (p : Pair)
  /-- `DEC ss` (45_arith16 R376). -/
  | decSs (p : Pair)
  /-- `INC r` (43_arith8 R315). -/
  | incR (r : Reg8)
  /-- `INC (IX+d)` (43_arith8 R317). -/
  | incMemIx (d : Byte)
  /-- `INC (IY+d)` (43_arith8 R317). -/
  | incMemIy (d : Byte)
  /-- `DEC r` (43_arith8 R318). -/
  | decR (r : Reg8)
  /-- `DEC (IX+d)` (43_arith8 R320). -/
  | decMemIx (d : Byte)
  /-- `DEC (IY+d)` (43_arith8 R320). -/
  | decMemIy (d : Byte)
  /-- `LD r,n` (40_load8 R202). -/
  | ldRN (r : Reg8) (n : Byte)
  /-- `LD IXH,n` (40_load8 R216). -/
  | ldIxhN (n : Byte)
  /-- `LD IXL,n` (40_load8 R216). -/
  | ldIxlN (n : Byte)
  /-- `LD IYH,n` (40_load8 R216). -/
  | ldIyhN (n : Byte)
  /-- `LD IYL,n` (40_load8 R216). -/
  | ldIylN (n : Byte)
  /-- `LD (HL),n` (40_load8 R207). -/
  | ldMemHlN (n : Byte)
  /-- `LD (IX+d),n` (40_load8 R208). -/
  | ldMemIxN (d : Byte) (n : Byte)
  /-- `LD (IY+d),n` (40_load8 R208). -/
  | ldMemIyN (d : Byte) (n : Byte)
  /-- `LD r,r'` (40_load8 R201). -/
  | ldRR (r : Reg8) (s : Reg8)
  /-- `LD p,p' (p = IXH or IXL; p' = B, C, D, E, IXH, IXL, A)` (40_load8 R215). -/
  | ldIxHalfP (h : Half) (p : Reg8)
  /-- `LD p,p' (p = B, C, D, E, A; p' = IXH or IXL)` (40_load8 R215). -/
  | ldPIxHalf (p : Reg8) (h : Half)
  /-- `LD p,p' (p = IYH or IYL; p' = B, C, D, E, IYH, IYL, A)` (40_load8 R215). -/
  | ldIyHalfP (h : Half) (p : Reg8)
  /-- `LD p,p' (p = B, C, D, E, A; p' = IYH or IYL)` (40_load8 R215). -/
  | ldPIyHalf (p : Reg8) (h : Half)
  /-- `LD r,(HL)` (40_load8 R203). -/
  | ldRMemHl (r : Reg8)
  /-- `LD r,(IX+d)` (40_load8 R204). -/
  | ldRMemIx (r : Reg8) (d : Byte)
  /-- `LD r,(IY+d)` (40_load8 R204). -/
  | ldRMemIy (r : Reg8) (d : Byte)
  /-- `LD (HL),r` (40_load8 R205). -/
  | ldMemHlR (r : Reg8)
  /-- `LD (IX+d),r` (40_load8 R206). -/
  | ldMemIxR (d : Byte) (r : Reg8)
  /-- `LD (IY+d),r` (40_load8 R206). -/
  | ldMemIyR (d : Byte) (r : Reg8)
  /-- `ADD A,r` (43_arith8 R307). -/
  | addAR (r : Reg8)
  /-- `ADD A,(IX+d)` (43_arith8 R307). -/
  | addAMemIx (d : Byte)
  /-- `ADD A,(IY+d)` (43_arith8 R307). -/
  | addAMemIy (d : Byte)
  /-- `ADD A,n` (43_arith8 R307). -/
  | addAN (n : Byte)
  /-- `ADC A,r` (43_arith8 R308). -/
  | adcAR (r : Reg8)
  /-- `ADC A,(IX+d)` (43_arith8 R308). -/
  | adcAMemIx (d : Byte)
  /-- `ADC A,(IY+d)` (43_arith8 R308). -/
  | adcAMemIy (d : Byte)
  /-- `ADC A,n` (43_arith8 R308). -/
  | adcAN (n : Byte)
  /-- `SUB r` (43_arith8 R309). -/
  | subAR (r : Reg8)
  /-- `SUB (IX+d)` (43_arith8 R309). -/
  | subAMemIx (d : Byte)
  /-- `SUB (IY+d)` (43_arith8 R309). -/
  | subAMemIy (d : Byte)
  /-- `SUB n` (43_arith8 R309). -/
  | subAN (n : Byte)
  /-- `SBC A,r` (43_arith8 R310). -/
  | sbcAR (r : Reg8)
  /-- `SBC A,(IX+d)` (43_arith8 R310). -/
  | sbcAMemIx (d : Byte)
  /-- `SBC A,(IY+d)` (43_arith8 R310). -/
  | sbcAMemIy (d : Byte)
  /-- `SBC A,n` (43_arith8 R310). -/
  | sbcAN (n : Byte)
  /-- `AND r` (43_arith8 R311). -/
  | andAR (r : Reg8)
  /-- `AND (IX+d)` (43_arith8 R311). -/
  | andAMemIx (d : Byte)
  /-- `AND (IY+d)` (43_arith8 R311). -/
  | andAMemIy (d : Byte)
  /-- `AND n` (43_arith8 R311). -/
  | andAN (n : Byte)
  /-- `XOR r` (43_arith8 R312). -/
  | xorAR (r : Reg8)
  /-- `XOR (IX+d)` (43_arith8 R312). -/
  | xorAMemIx (d : Byte)
  /-- `XOR (IY+d)` (43_arith8 R312). -/
  | xorAMemIy (d : Byte)
  /-- `XOR n` (43_arith8 R312). -/
  | xorAN (n : Byte)
  /-- `OR r` (43_arith8 R313). -/
  | orAR (r : Reg8)
  /-- `OR (IX+d)` (43_arith8 R313). -/
  | orAMemIx (d : Byte)
  /-- `OR (IY+d)` (43_arith8 R313). -/
  | orAMemIy (d : Byte)
  /-- `OR n` (43_arith8 R313). -/
  | orAN (n : Byte)
  /-- `CP r` (43_arith8 R314). -/
  | cpAR (r : Reg8)
  /-- `CP (IX+d)` (43_arith8 R314). -/
  | cpAMemIx (d : Byte)
  /-- `CP (IY+d)` (43_arith8 R314). -/
  | cpAMemIy (d : Byte)
  /-- `CP n` (43_arith8 R314). -/
  | cpAN (n : Byte)
  /-- `RET cc` (48_jump_call_return R463). -/
  | retCc (cc : Cond)
  /-- `POP qq` (41_load16 R253). -/
  | popQq (q : QPair)
  /-- `JP cc,nn` (48_jump_call_return R451). -/
  | jpCcNn (cc : Cond) (nn : Word)
  /-- `JP nn` (48_jump_call_return R450). -/
  | jpNn (nn : Word)
  /-- `OUT (n),A` (49_io R486). -/
  | outNA (n : Byte)
  /-- `IN A,(n)` (49_io R480). -/
  | inAN (n : Byte)
  /-- `CALL cc,nn` (48_jump_call_return R461). -/
  | callCcNn (cc : Cond) (nn : Word)
  /-- `PUSH qq` (41_load16 R251). -/
  | pushQq (q : QPair)
  /-- `CALL nn` (48_jump_call_return R460). -/
  | callNn (nn : Word)
  /-- `RST t*8` (48_jump_call_return R470). -/
  | rst (t : BitVec 3)
  /-- `RLC r` (46_rotate_shift R396). -/
  | rlcR (r : Reg8)
  /-- `RRC r` (46_rotate_shift R397). -/
  | rrcR (r : Reg8)
  /-- `RL r` (46_rotate_shift R398). -/
  | rlR (r : Reg8)
  /-- `RR r` (46_rotate_shift R399). -/
  | rrR (r : Reg8)
  /-- `SLA r` (46_rotate_shift R400). -/
  | slaR (r : Reg8)
  /-- `SRA r` (46_rotate_shift R401). -/
  | sraR (r : Reg8)
  /-- `SLL r` (46_rotate_shift R403). -/
  | sllR (r : Reg8)
  /-- `SRL r` (46_rotate_shift R402). -/
  | srlR (r : Reg8)
  /-- `BIT b,r` (47_bit R430). -/
  | bitBR (b : BitVec 3) (r : Reg8)
  /-- `BIT b,(HL)` (47_bit R431). -/
  | bitBMemHl (b : BitVec 3)
  /-- `RES b,r` (47_bit R436). -/
  | resBR (b : BitVec 3) (r : Reg8)
  /-- `RES b,(HL)` (47_bit R437). -/
  | resBMemHl (b : BitVec 3)
  /-- `SET b,r` (47_bit R433). -/
  | setBR (b : BitVec 3) (r : Reg8)
  /-- `SET b,(HL)` (47_bit R434). -/
  | setBMemHl (b : BitVec 3)
  /-- `RLC (IX+d)` (46_rotate_shift R396). -/
  | rlcMemIx (d : Byte)
  /-- `RLC (IX+d),r` (46_rotate_shift R406). -/
  | rlcMemIxR (d : Byte) (r : Reg8)
  /-- `RRC (IX+d)` (46_rotate_shift R397). -/
  | rrcMemIx (d : Byte)
  /-- `RRC (IX+d),r` (46_rotate_shift R406). -/
  | rrcMemIxR (d : Byte) (r : Reg8)
  /-- `RL (IX+d)` (46_rotate_shift R398). -/
  | rlMemIx (d : Byte)
  /-- `RL (IX+d),r` (46_rotate_shift R406). -/
  | rlMemIxR (d : Byte) (r : Reg8)
  /-- `RR (IX+d)` (46_rotate_shift R399). -/
  | rrMemIx (d : Byte)
  /-- `RR (IX+d),r` (46_rotate_shift R406). -/
  | rrMemIxR (d : Byte) (r : Reg8)
  /-- `SLA (IX+d)` (46_rotate_shift R400). -/
  | slaMemIx (d : Byte)
  /-- `SLA (IX+d),r` (46_rotate_shift R406). -/
  | slaMemIxR (d : Byte) (r : Reg8)
  /-- `SRA (IX+d)` (46_rotate_shift R401). -/
  | sraMemIx (d : Byte)
  /-- `SRA (IX+d),r` (46_rotate_shift R406). -/
  | sraMemIxR (d : Byte) (r : Reg8)
  /-- `SLL (IX+d)` (46_rotate_shift R403). -/
  | sllMemIx (d : Byte)
  /-- `SLL (IX+d),r` (46_rotate_shift R406). -/
  | sllMemIxR (d : Byte) (r : Reg8)
  /-- `SRL (IX+d)` (46_rotate_shift R402). -/
  | srlMemIx (d : Byte)
  /-- `SRL (IX+d),r` (46_rotate_shift R406). -/
  | srlMemIxR (d : Byte) (r : Reg8)
  /-- `BIT b,(IX+d)` (47_bit R432). -/
  | bitBMemIx (b : BitVec 3) (d : Byte)
  /-- `BIT b,(IX+d) (copy, z != 6)` (47_bit R432). -/
  | bitBMemIxCopy (b : BitVec 3) (d : Byte) (z : Reg8)
  /-- `RES b,(IX+d)` (47_bit R438). -/
  | resBMemIx (b : BitVec 3) (d : Byte)
  /-- `RES b,(IX+d),r` (47_bit R439). -/
  | resBMemIxR (b : BitVec 3) (d : Byte) (r : Reg8)
  /-- `SET b,(IX+d)` (47_bit R435). -/
  | setBMemIx (b : BitVec 3) (d : Byte)
  /-- `SET b,(IX+d),r` (47_bit R439). -/
  | setBMemIxR (b : BitVec 3) (d : Byte) (r : Reg8)
  /-- `RLC (IY+d)` (46_rotate_shift R396). -/
  | rlcMemIy (d : Byte)
  /-- `RLC (IY+d),r` (46_rotate_shift R406). -/
  | rlcMemIyR (d : Byte) (r : Reg8)
  /-- `RRC (IY+d)` (46_rotate_shift R397). -/
  | rrcMemIy (d : Byte)
  /-- `RRC (IY+d),r` (46_rotate_shift R406). -/
  | rrcMemIyR (d : Byte) (r : Reg8)
  /-- `RL (IY+d)` (46_rotate_shift R398). -/
  | rlMemIy (d : Byte)
  /-- `RL (IY+d),r` (46_rotate_shift R406). -/
  | rlMemIyR (d : Byte) (r : Reg8)
  /-- `RR (IY+d)` (46_rotate_shift R399). -/
  | rrMemIy (d : Byte)
  /-- `RR (IY+d),r` (46_rotate_shift R406). -/
  | rrMemIyR (d : Byte) (r : Reg8)
  /-- `SLA (IY+d)` (46_rotate_shift R400). -/
  | slaMemIy (d : Byte)
  /-- `SLA (IY+d),r` (46_rotate_shift R406). -/
  | slaMemIyR (d : Byte) (r : Reg8)
  /-- `SRA (IY+d)` (46_rotate_shift R401). -/
  | sraMemIy (d : Byte)
  /-- `SRA (IY+d),r` (46_rotate_shift R406). -/
  | sraMemIyR (d : Byte) (r : Reg8)
  /-- `SLL (IY+d)` (46_rotate_shift R403). -/
  | sllMemIy (d : Byte)
  /-- `SLL (IY+d),r` (46_rotate_shift R406). -/
  | sllMemIyR (d : Byte) (r : Reg8)
  /-- `SRL (IY+d)` (46_rotate_shift R402). -/
  | srlMemIy (d : Byte)
  /-- `SRL (IY+d),r` (46_rotate_shift R406). -/
  | srlMemIyR (d : Byte) (r : Reg8)
  /-- `BIT b,(IY+d)` (47_bit R432). -/
  | bitBMemIy (b : BitVec 3) (d : Byte)
  /-- `BIT b,(IY+d) (copy, z != 6)` (47_bit R432). -/
  | bitBMemIyCopy (b : BitVec 3) (d : Byte) (z : Reg8)
  /-- `RES b,(IY+d)` (47_bit R438). -/
  | resBMemIy (b : BitVec 3) (d : Byte)
  /-- `RES b,(IY+d),r` (47_bit R439). -/
  | resBMemIyR (b : BitVec 3) (d : Byte) (r : Reg8)
  /-- `SET b,(IY+d)` (47_bit R435). -/
  | setBMemIy (b : BitVec 3) (d : Byte)
  /-- `SET b,(IY+d),r` (47_bit R439). -/
  | setBMemIyR (b : BitVec 3) (d : Byte) (r : Reg8)
  /-- `IN r,(C)` (49_io R481). -/
  | inRC (r : Reg8)
  /-- `OUT (C),r` (49_io R487). -/
  | outCR (r : Reg8)
  /-- `SBC HL,ss` (45_arith16 R372). -/
  | sbcHlSs (p : Pair)
  /-- `ADC HL,ss` (45_arith16 R371). -/
  | adcHlSs (p : Pair)
  /-- `LD (nn),dd` (41_load16 R247). -/
  | ldMemNnDd (nn : Word) (p : Pair)
  /-- `LD dd,(nn)` (41_load16 R244). -/
  | ldDdMemNn (p : Pair) (nn : Word)
  /-- `NEG (copy)` (44_cpu_control R350). -/
  | negCopy (y : BitVec 3)
  /-- `RETN (copy)` (44_cpu_control R350). -/
  | retnCopy (y : BitVec 3)
  /-- `IM 0 (copy)` (44_cpu_control R350). -/
  | im0Copy (y : BitVec 3)
  /-- `NOP (ED 77, ED 7F)` (44_cpu_control R350). -/
  | nopEd7 (x : BitVec 1)
  /-- `NOP (ED 00 to ED 3F)` (44_cpu_control R350). -/
  | nopEdLow (x : BitVec 6)
  /-- `NOP (ED C0 to ED FF)` (44_cpu_control R350). -/
  | nopEdHigh (x : BitVec 6)
  /-- `NOP (ED 80 to ED 9F)` (44_cpu_control R350). -/
  | nopEdMid (x : BitVec 5)
  /-- `NOP (ED A4 to A7, AC to AF, B4 to B7, BC to BF)` (44_cpu_control R350). -/
  | nopEdBlock (y : BitVec 2) (x : BitVec 2)
  /-- `NOP` (44_cpu_control R345). -/
  | nop
  /-- `EX AF,AF'` (42_exchange_block R271). -/
  | exAfAf
  /-- `LD (BC),A` (40_load8 R212). -/
  | ldMemBcA
  /-- `LD (DE),A` (40_load8 R213). -/
  | ldMemDeA
  /-- `LD A,(BC)` (40_load8 R209). -/
  | ldAMemBc
  /-- `LD A,(DE)` (40_load8 R210). -/
  | ldAMemDe
  /-- `INC HL` (45_arith16 R374). -/
  | incHl
  /-- `INC IX` (45_arith16 R375). -/
  | incIx
  /-- `INC IY` (45_arith16 R375). -/
  | incIy
  /-- `DEC HL` (45_arith16 R376). -/
  | decHl
  /-- `DEC IX` (45_arith16 R377). -/
  | decIx
  /-- `DEC IY` (45_arith16 R377). -/
  | decIy
  /-- `INC IXH` (43_arith8 R321). -/
  | incIxh
  /-- `INC IXL` (43_arith8 R321). -/
  | incIxl
  /-- `INC IYH` (43_arith8 R321). -/
  | incIyh
  /-- `INC IYL` (43_arith8 R321). -/
  | incIyl
  /-- `INC (HL)` (43_arith8 R316). -/
  | incMemHl
  /-- `DEC IXH` (43_arith8 R321). -/
  | decIxh
  /-- `DEC IXL` (43_arith8 R321). -/
  | decIxl
  /-- `DEC IYH` (43_arith8 R321). -/
  | decIyh
  /-- `DEC IYL` (43_arith8 R321). -/
  | decIyl
  /-- `DEC (HL)` (43_arith8 R319). -/
  | decMemHl
  /-- `RLCA` (46_rotate_shift R390). -/
  | rlca
  /-- `RRCA` (46_rotate_shift R392). -/
  | rrca
  /-- `RLA` (46_rotate_shift R391). -/
  | rla
  /-- `RRA` (46_rotate_shift R393). -/
  | rra
  /-- `DAA` (44_cpu_control R340). -/
  | daa
  /-- `CPL` (44_cpu_control R341). -/
  | cpl
  /-- `SCF` (44_cpu_control R344). -/
  | scf
  /-- `CCF` (44_cpu_control R343). -/
  | ccf
  /-- `HALT` (44_cpu_control R346). -/
  | halt
  /-- `ADD A,IXH` (43_arith8 R307). -/
  | addAIxh
  /-- `ADD A,IXL` (43_arith8 R307). -/
  | addAIxl
  /-- `ADD A,IYH` (43_arith8 R307). -/
  | addAIyh
  /-- `ADD A,IYL` (43_arith8 R307). -/
  | addAIyl
  /-- `ADD A,(HL)` (43_arith8 R307). -/
  | addAMemHl
  /-- `ADC A,IXH` (43_arith8 R308). -/
  | adcAIxh
  /-- `ADC A,IXL` (43_arith8 R308). -/
  | adcAIxl
  /-- `ADC A,IYH` (43_arith8 R308). -/
  | adcAIyh
  /-- `ADC A,IYL` (43_arith8 R308). -/
  | adcAIyl
  /-- `ADC A,(HL)` (43_arith8 R308). -/
  | adcAMemHl
  /-- `SUB IXH` (43_arith8 R309). -/
  | subAIxh
  /-- `SUB IXL` (43_arith8 R309). -/
  | subAIxl
  /-- `SUB IYH` (43_arith8 R309). -/
  | subAIyh
  /-- `SUB IYL` (43_arith8 R309). -/
  | subAIyl
  /-- `SUB (HL)` (43_arith8 R309). -/
  | subAMemHl
  /-- `SBC A,IXH` (43_arith8 R310). -/
  | sbcAIxh
  /-- `SBC A,IXL` (43_arith8 R310). -/
  | sbcAIxl
  /-- `SBC A,IYH` (43_arith8 R310). -/
  | sbcAIyh
  /-- `SBC A,IYL` (43_arith8 R310). -/
  | sbcAIyl
  /-- `SBC A,(HL)` (43_arith8 R310). -/
  | sbcAMemHl
  /-- `AND IXH` (43_arith8 R311). -/
  | andAIxh
  /-- `AND IXL` (43_arith8 R311). -/
  | andAIxl
  /-- `AND IYH` (43_arith8 R311). -/
  | andAIyh
  /-- `AND IYL` (43_arith8 R311). -/
  | andAIyl
  /-- `AND (HL)` (43_arith8 R311). -/
  | andAMemHl
  /-- `XOR IXH` (43_arith8 R312). -/
  | xorAIxh
  /-- `XOR IXL` (43_arith8 R312). -/
  | xorAIxl
  /-- `XOR IYH` (43_arith8 R312). -/
  | xorAIyh
  /-- `XOR IYL` (43_arith8 R312). -/
  | xorAIyl
  /-- `XOR (HL)` (43_arith8 R312). -/
  | xorAMemHl
  /-- `OR IXH` (43_arith8 R313). -/
  | orAIxh
  /-- `OR IXL` (43_arith8 R313). -/
  | orAIxl
  /-- `OR IYH` (43_arith8 R313). -/
  | orAIyh
  /-- `OR IYL` (43_arith8 R313). -/
  | orAIyl
  /-- `OR (HL)` (43_arith8 R313). -/
  | orAMemHl
  /-- `CP IXH` (43_arith8 R314). -/
  | cpAIxh
  /-- `CP IXL` (43_arith8 R314). -/
  | cpAIxl
  /-- `CP IYH` (43_arith8 R314). -/
  | cpAIyh
  /-- `CP IYL` (43_arith8 R314). -/
  | cpAIyl
  /-- `CP (HL)` (43_arith8 R314). -/
  | cpAMemHl
  /-- `POP HL` (41_load16 R253). -/
  | popHl
  /-- `POP IX` (41_load16 R254). -/
  | popIx
  /-- `POP IY` (41_load16 R254). -/
  | popIy
  /-- `RET` (48_jump_call_return R462). -/
  | ret
  /-- `EXX` (42_exchange_block R272). -/
  | exx
  /-- `JP (HL)` (48_jump_call_return R457). -/
  | jpMemHl
  /-- `JP (IX)` (48_jump_call_return R458). -/
  | jpMemIx
  /-- `JP (IY)` (48_jump_call_return R458). -/
  | jpMemIy
  /-- `LD SP,HL` (41_load16 R249). -/
  | ldSpHl
  /-- `LD SP,IX` (41_load16 R250). -/
  | ldSpIx
  /-- `LD SP,IY` (41_load16 R250). -/
  | ldSpIy
  /-- `prefix CB (selects the CB table)` (30_encoding R157). -/
  | prefixCb
  /-- `prefix CB under DD or FD (selects the indexed-CB table)` (30_encoding R157). -/
  | prefixXyCb
  /-- `EX (SP),HL` (42_exchange_block R273). -/
  | exMemSpHl
  /-- `EX (SP),IX` (42_exchange_block R274). -/
  | exMemSpIx
  /-- `EX (SP),IY` (42_exchange_block R274). -/
  | exMemSpIy
  /-- `EX DE,HL` (42_exchange_block R270). -/
  | exDeHl
  /-- `DI` (44_cpu_control R348). -/
  | di
  /-- `EI` (44_cpu_control R347). -/
  | ei
  /-- `PUSH HL` (41_load16 R251). -/
  | pushHl
  /-- `PUSH IX` (41_load16 R252). -/
  | pushIx
  /-- `PUSH IY` (41_load16 R252). -/
  | pushIy
  /-- `prefix DD (IX)` (30_encoding R157). -/
  | prefixDd
  /-- `prefix ED (selects the ED table; drops a DD or FD before it)` (30_encoding R157). -/
  | prefixEd
  /-- `prefix FD (IY)` (30_encoding R157). -/
  | prefixFd
  /-- `RLC (HL)` (46_rotate_shift R396). -/
  | rlcMemHl
  /-- `RRC (HL)` (46_rotate_shift R397). -/
  | rrcMemHl
  /-- `RL (HL)` (46_rotate_shift R398). -/
  | rlMemHl
  /-- `RR (HL)` (46_rotate_shift R399). -/
  | rrMemHl
  /-- `SLA (HL)` (46_rotate_shift R400). -/
  | slaMemHl
  /-- `SRA (HL)` (46_rotate_shift R401). -/
  | sraMemHl
  /-- `SLL (HL)` (46_rotate_shift R403). -/
  | sllMemHl
  /-- `SRL (HL)` (46_rotate_shift R402). -/
  | srlMemHl
  /-- `IN F,(C)` (49_io R492). -/
  | inFC
  /-- `OUT (C),0` (49_io R492). -/
  | outC0
  /-- `NEG` (44_cpu_control R342). -/
  | neg
  /-- `RETN` (48_jump_call_return R469). -/
  | retn
  /-- `RETI` (48_jump_call_return R468). -/
  | reti
  /-- `IM 0` (44_cpu_control R349). -/
  | im0
  /-- `IM 1` (44_cpu_control R349). -/
  | im1
  /-- `IM 2` (44_cpu_control R349). -/
  | im2
  /-- `IM 1 (copy)` (44_cpu_control R350). -/
  | im1Copy
  /-- `IM 2 (copy)` (44_cpu_control R350). -/
  | im2Copy
  /-- `LD I,A` (40_load8 R219). -/
  | ldIA
  /-- `LD R,A` (40_load8 R220). -/
  | ldRegRA
  /-- `LD A,I` (40_load8 R217). -/
  | ldAI
  /-- `LD A,R` (40_load8 R218). -/
  | ldARegR
  /-- `RRD` (46_rotate_shift R405). -/
  | rrd
  /-- `RLD` (46_rotate_shift R404). -/
  | rld
  /-- `LDI` (42_exchange_block R275). -/
  | ldi
  /-- `CPI` (42_exchange_block R279). -/
  | cpi
  /-- `INI` (49_io R482). -/
  | ini
  /-- `OUTI` (49_io R488). -/
  | outi
  /-- `LDD` (42_exchange_block R277). -/
  | ldd
  /-- `CPD` (42_exchange_block R281). -/
  | cpd
  /-- `IND` (49_io R484). -/
  | ind
  /-- `OUTD` (49_io R490). -/
  | outd
  /-- `LDIR` (42_exchange_block R276). -/
  | ldir
  /-- `CPIR` (42_exchange_block R280). -/
  | cpir
  /-- `INIR` (49_io R483). -/
  | inir
  /-- `OTIR` (49_io R489). -/
  | otir
  /-- `LDDR` (42_exchange_block R278). -/
  | lddr
  /-- `CPDR` (42_exchange_block R282). -/
  | cpdr
  /-- `INDR` (49_io R485). -/
  | indr
  /-- `OTDR` (49_io R491). -/
  | otdr
  deriving DecidableEq, Repr

end Sys2Proof
end

