-- ==== Sys2Proof/WellFormed.lean ====
section
/-! DEFINITION. Which terms of `Instr` are instructions: the field values spec/opcode_table.json allows in each row
("every field has an allowed value", 30_encoding R179). Every other field value of a constructor is allowed. -/

namespace Sys2Proof

/-- The field values of the row are allowed ones. `LD HL,nn`, `INC HL`, `DEC HL`, `PUSH HL`, `POP HL` have rows of
their own; the sources of the second index-half load are not halves; the undocumented copies exclude the documented
opcode. -/
def WellFormed : Instr → Bool
  | .ldDdNn p _ => p != .hl
  | .incSs p => p != .hl
  | .decSs p => p != .hl
  | .popQq q => q != .hl
  | .pushQq q => q != .hl
  | .ldPIxHalf p _ => p != .h && p != .l
  | .ldPIyHalf p _ => p != .h && p != .l
  | .negCopy y => y != 0
  | .retnCopy y => y != 0 && y != 1
  | .im0Copy y => y == 1 || y == 4 || y == 5
  | _ => true

/-- The rows of status `prefix`: a prefix byte alone, which is never a whole instruction (30_encoding R157, R179). -/
def Instr.isPrefixByte : Instr → Bool
  | .prefixCb => true
  | .prefixXyCb => true
  | .prefixDd => true
  | .prefixEd => true
  | .prefixFd => true
  | _ => false

end Sys2Proof
end

