-- ==== Sys2Proof/Decode.lean ====
section
/-! DEFINITION. Decoding (30_encoding R157, R158, R161 to R176) and encoding. The four tables give an `Entry`: an
instruction, or one that waits for its operand bytes; the pipeline (Machine/Pipeline.lean) and `decode` read the same
tables, one over memory, the other over a list of bytes. -/

namespace Sys2Proof

/-- Why a list of bytes does not decode: every byte string that is long enough does (30_encoding R174). -/
inductive Reject where
  /-- The bytes end inside an instruction. -/
  | truncated
  deriving DecidableEq, Repr

/-- A table entry before its operand bytes are fetched: complete, or waiting for one or two bytes, in stream order
(30_encoding R161). -/
inductive Entry where
  | done (i : Instr)
  | take1 (k : Byte → Instr)
  | take2 (k : Byte → Byte → Instr)

/-- An entry with a 16-bit operand, low byte first (30_encoding R163). -/
def Entry.takeWord (k : Word → Instr) : Entry := .take2 fun l h => k (join h l)

/-- `x = op[7:6]` (30_encoding R162). -/
def fieldX (op : Byte) : BitVec 2 := op.extractLsb' 6 2

/-- `y = op[5:3]`. -/
def fieldY (op : Byte) : BitVec 3 := op.extractLsb' 3 3

/-- `z = op[2:0]`. -/
def fieldZ (op : Byte) : BitVec 3 := op.extractLsb' 0 3

/-- `p = op[5:4]`. -/
def fieldP (op : Byte) : BitVec 2 := op.extractLsb' 4 2

/-- `q = op[3]`. -/
def fieldQ (op : Byte) : Bool := op.getLsbD 3

/-- `r[i]`; value 6 names no register (30_encoding R165). -/
def reg8Of (i : BitVec 3) : Option Reg8 :=
  match i.toNat with
  | 0 => some .b
  | 1 => some .c
  | 2 => some .d
  | 3 => some .e
  | 4 => some .h
  | 5 => some .l
  | 6 => none
  | _ => some .a

/-- The field value of a register. -/
def Reg8.code : Reg8 → BitVec 3
  | .b => 0
  | .c => 1
  | .d => 2
  | .e => 3
  | .h => 4
  | .l => 5
  | .a => 7

/-- `dd[p]`, `ss[p]` (30_encoding R166). -/
def pairOf (p : BitVec 2) : Pair :=
  match p.toNat with
  | 0 => .bc
  | 1 => .de
  | 2 => .hl
  | _ => .sp

/-- The field value of a pair. -/
def Pair.code : Pair → BitVec 2
  | .bc => 0
  | .de => 1
  | .hl => 2
  | .sp => 3

/-- `qq[p]` (30_encoding R166). -/
def qpairOf (p : BitVec 2) : QPair :=
  match p.toNat with
  | 0 => .bc
  | 1 => .de
  | 2 => .hl
  | _ => .af

/-- The field value of a stack pair. -/
def QPair.code : QPair → BitVec 2
  | .bc => 0
  | .de => 1
  | .hl => 2
  | .af => 3

/-- `pp[p]`, `rr[p]` (30_encoding R166). -/
def xpairOf (p : BitVec 2) : XPair :=
  match p.toNat with
  | 0 => .bc
  | 1 => .de
  | 2 => .xy
  | _ => .sp

/-- The field value of a pair of `ADD XY`. -/
def XPair.code : XPair → BitVec 2
  | .bc => 0
  | .de => 1
  | .xy => 2
  | .sp => 3

/-- `cc` (30_encoding R167). -/
def condOf (y : BitVec 3) : Cond :=
  match y.toNat with
  | 0 => .nz
  | 1 => .z
  | 2 => .nc
  | 3 => .c
  | 4 => .po
  | 5 => .pe
  | 6 => .p
  | _ => .m

/-- The field value of a condition. -/
def Cond.code : Cond → BitVec 3
  | .nz => 0
  | .z => 1
  | .nc => 2
  | .c => 3
  | .po => 4
  | .pe => 5
  | .p => 6
  | .m => 7

/-- The half of an index register that a register field names under an index prefix (30_encoding R158 item 5). -/
def halfOf (i : BitVec 3) : Option Half :=
  match i.toNat with
  | 4 => some .hi
  | 5 => some .lo
  | _ => none

/-- The register field value of a half. -/
def Half.regField : Half → BitVec 3
  | .hi => 4
  | .lo => 5

/-- `alu[y]` (30_encoding R168). -/
def aluOf (y : BitVec 3) : AluOp :=
  match y.toNat with
  | 0 => .add
  | 1 => .adc
  | 2 => .sub
  | 3 => .sbc
  | 4 => .and
  | 5 => .xor
  | 6 => .or
  | _ => .cp

/-- `rot[y]` (30_encoding R168). -/
def rotOf (y : BitVec 3) : RotOp :=
  match y.toNat with
  | 0 => .rlc
  | 1 => .rrc
  | 2 => .rl
  | 3 => .rr
  | 4 => .sla
  | 5 => .sra
  | 6 => .sll
  | _ => .srl

/-- The index register a prefix selects (30_encoding R158). -/
def Pfx.index : Pfx → Option Index
  | .none => Option.none
  | .dd => some .ix
  | .fd => some .iy

/-- The IX form or the IY form. -/
def Index.pick {α : Type} (x : Index) (ix iy : α) : α :=
  match x with
  | .ix => ix
  | .iy => iy

/-- `alu[y] r` (43_arith8 R306). -/
def aluReg (op : AluOp) : Reg8 → Instr :=
  match op with
  | .add => .addAR
  | .adc => .adcAR
  | .sub => .subAR
  | .sbc => .sbcAR
  | .and => .andAR
  | .xor => .xorAR
  | .or => .orAR
  | .cp => .cpAR

/-- `alu[y] (HL)`. -/
def aluMem (op : AluOp) : Instr :=
  match op with
  | .add => .addAMemHl
  | .adc => .adcAMemHl
  | .sub => .subAMemHl
  | .sbc => .sbcAMemHl
  | .and => .andAMemHl
  | .xor => .xorAMemHl
  | .or => .orAMemHl
  | .cp => .cpAMemHl

/-- `alu[y] n`. -/
def aluImm (op : AluOp) : Byte → Instr :=
  match op with
  | .add => .addAN
  | .adc => .adcAN
  | .sub => .subAN
  | .sbc => .sbcAN
  | .and => .andAN
  | .xor => .xorAN
  | .or => .orAN
  | .cp => .cpAN

/-- `alu[y] (XY+d)`. -/
def aluIdx (op : AluOp) (x : Index) : Byte → Instr :=
  match op with
  | .add => x.pick .addAMemIx .addAMemIy
  | .adc => x.pick .adcAMemIx .adcAMemIy
  | .sub => x.pick .subAMemIx .subAMemIy
  | .sbc => x.pick .sbcAMemIx .sbcAMemIy
  | .and => x.pick .andAMemIx .andAMemIy
  | .xor => x.pick .xorAMemIx .xorAMemIy
  | .or => x.pick .orAMemIx .orAMemIy
  | .cp => x.pick .cpAMemIx .cpAMemIy

/-- `alu[y] XYH`. -/
def aluHi (op : AluOp) (x : Index) : Instr :=
  match op with
  | .add => x.pick .addAIxh .addAIyh
  | .adc => x.pick .adcAIxh .adcAIyh
  | .sub => x.pick .subAIxh .subAIyh
  | .sbc => x.pick .sbcAIxh .sbcAIyh
  | .and => x.pick .andAIxh .andAIyh
  | .xor => x.pick .xorAIxh .xorAIyh
  | .or => x.pick .orAIxh .orAIyh
  | .cp => x.pick .cpAIxh .cpAIyh

/-- `alu[y] XYL`. -/
def aluLo (op : AluOp) (x : Index) : Instr :=
  match op with
  | .add => x.pick .addAIxl .addAIyl
  | .adc => x.pick .adcAIxl .adcAIyl
  | .sub => x.pick .subAIxl .subAIyl
  | .sbc => x.pick .sbcAIxl .sbcAIyl
  | .and => x.pick .andAIxl .andAIyl
  | .xor => x.pick .xorAIxl .xorAIyl
  | .or => x.pick .orAIxl .orAIyl
  | .cp => x.pick .cpAIxl .cpAIyl

/-- `rot[y] r` (46_rotate_shift R395). -/
def rotReg (op : RotOp) : Reg8 → Instr :=
  match op with
  | .rlc => .rlcR
  | .rrc => .rrcR
  | .rl => .rlR
  | .rr => .rrR
  | .sla => .slaR
  | .sra => .sraR
  | .sll => .sllR
  | .srl => .srlR

/-- `rot[y] (HL)`. -/
def rotMem (op : RotOp) : Instr :=
  match op with
  | .rlc => .rlcMemHl
  | .rrc => .rrcMemHl
  | .rl => .rlMemHl
  | .rr => .rrMemHl
  | .sla => .slaMemHl
  | .sra => .sraMemHl
  | .sll => .sllMemHl
  | .srl => .srlMemHl

/-- `rot[y] (XY+d)`. -/
def rotIdx (op : RotOp) (x : Index) : Byte → Instr :=
  match op with
  | .rlc => x.pick .rlcMemIx .rlcMemIy
  | .rrc => x.pick .rrcMemIx .rrcMemIy
  | .rl => x.pick .rlMemIx .rlMemIy
  | .rr => x.pick .rrMemIx .rrMemIy
  | .sla => x.pick .slaMemIx .slaMemIy
  | .sra => x.pick .sraMemIx .sraMemIy
  | .sll => x.pick .sllMemIx .sllMemIy
  | .srl => x.pick .srlMemIx .srlMemIy

/-- `rot[y] (XY+d),r` (46_rotate_shift R406). -/
def rotIdxReg (op : RotOp) (x : Index) : Byte → Reg8 → Instr :=
  match op with
  | .rlc => x.pick .rlcMemIxR .rlcMemIyR
  | .rrc => x.pick .rrcMemIxR .rrcMemIyR
  | .rl => x.pick .rlMemIxR .rlMemIyR
  | .rr => x.pick .rrMemIxR .rrMemIyR
  | .sla => x.pick .slaMemIxR .slaMemIyR
  | .sra => x.pick .sraMemIxR .sraMemIyR
  | .sll => x.pick .sllMemIxR .sllMemIyR
  | .srl => x.pick .srlMemIxR .srlMemIyR

/-- The base table for `x = 0` (30_encoding R169). -/
def base0 (op : Byte) : Entry :=
  let y := fieldY op
  match (fieldZ op).toNat with
  | 0 =>
    match y.toNat with
    | 0 => .done .nop
    | 1 => .done .exAfAf
    | 2 => .take1 .djnz
    | 3 => .take1 .jr
    | 4 => .take1 .jrNz
    | 5 => .take1 .jrZ
    | 6 => .take1 .jrNc
    | _ => .take1 .jrC
  | 1 =>
    if fieldQ op then .done (.addHlSs (pairOf (fieldP op)))
    else if pairOf (fieldP op) = .hl then Entry.takeWord .ldHlNn
    else Entry.takeWord (.ldDdNn (pairOf (fieldP op)))
  | 2 =>
    match y.toNat with
    | 0 => .done .ldMemBcA
    | 1 => .done .ldAMemBc
    | 2 => .done .ldMemDeA
    | 3 => .done .ldAMemDe
    | 4 => Entry.takeWord .ldMemNnHl
    | 5 => Entry.takeWord .ldHlMemNn
    | 6 => Entry.takeWord .ldMemNnA
    | _ => Entry.takeWord .ldAMemNn
  | 3 =>
    if fieldQ op then .done (if pairOf (fieldP op) = .hl then .decHl else .decSs (pairOf (fieldP op)))
    else .done (if pairOf (fieldP op) = .hl then .incHl else .incSs (pairOf (fieldP op)))
  | 4 =>
    match reg8Of y with
    | some r => .done (.incR r)
    | none => .done .incMemHl
  | 5 =>
    match reg8Of y with
    | some r => .done (.decR r)
    | none => .done .decMemHl
  | 6 =>
    match reg8Of y with
    | some r => .take1 (.ldRN r)
    | none => .take1 .ldMemHlN
  | _ =>
    match y.toNat with
    | 0 => .done .rlca
    | 1 => .done .rrca
    | 2 => .done .rla
    | 3 => .done .rra
    | 4 => .done .daa
    | 5 => .done .cpl
    | 6 => .done .scf
    | _ => .done .ccf

/-- The base table for `x = 1`. -/
def base1 (op : Byte) : Entry :=
  match reg8Of (fieldY op), reg8Of (fieldZ op) with
  | some r, some s => .done (.ldRR r s)
  | some r, none => .done (.ldRMemHl r)
  | none, some s => .done (.ldMemHlR s)
  | none, none => .done .halt

/-- The base table for `x = 2`. -/
def base2 (op : Byte) : Entry :=
  match reg8Of (fieldZ op) with
  | some r => .done (aluReg (aluOf (fieldY op)) r)
  | none => .done (aluMem (aluOf (fieldY op)))

/-- The base table for `x = 3`. The four prefix bytes are entries of it; the prefix routing takes them first. -/
def base3 (op : Byte) : Entry :=
  let y := fieldY op
  match (fieldZ op).toNat with
  | 0 => .done (.retCc (condOf y))
  | 1 =>
    match y.toNat with
    | 1 => .done .ret
    | 3 => .done .exx
    | 5 => .done .jpMemHl
    | 7 => .done .ldSpHl
    | 4 => .done .popHl
    | _ => .done (.popQq (qpairOf (fieldP op)))
  | 2 => Entry.takeWord (.jpCcNn (condOf y))
  | 3 =>
    match y.toNat with
    | 0 => Entry.takeWord .jpNn
    | 1 => .done .prefixCb
    | 2 => .take1 .outNA
    | 3 => .take1 .inAN
    | 4 => .done .exMemSpHl
    | 5 => .done .exDeHl
    | 6 => .done .di
    | _ => .done .ei
  | 4 => Entry.takeWord (.callCcNn (condOf y))
  | 5 =>
    match y.toNat with
    | 1 => Entry.takeWord .callNn
    | 3 => .done .prefixDd
    | 5 => .done .prefixEd
    | 7 => .done .prefixFd
    | 4 => .done .pushHl
    | _ => .done (.pushQq (qpairOf (fieldP op)))
  | 6 => .take1 (aluImm (aluOf y))
  | _ => .done (.rst y)

/-- The base table without an index prefix (30_encoding R169). -/
def basePlain (op : Byte) : Entry :=
  match (fieldX op).toNat with
  | 0 => base0 op
  | 1 => base1 op
  | 2 => base2 op
  | _ => base3 op

/-- The base-table entries for `x = 0` that an index prefix changes (30_encoding R158); the others keep their meaning. -/
def indexed0 (x : Index) (op : Byte) : Entry :=
  match op.toNat with
  | 0x09 | 0x19 | 0x29 | 0x39 => .done (x.pick (.addIxPp (xpairOf (fieldP op))) (.addIyRr (xpairOf (fieldP op))))
  | 0x21 => Entry.takeWord (x.pick .ldIxNn .ldIyNn)
  | 0x22 => Entry.takeWord (x.pick .ldMemNnIx .ldMemNnIy)
  | 0x23 => .done (x.pick .incIx .incIy)
  | 0x24 => .done (x.pick .incIxh .incIyh)
  | 0x25 => .done (x.pick .decIxh .decIyh)
  | 0x26 => .take1 (x.pick .ldIxhN .ldIyhN)
  | 0x2A => Entry.takeWord (x.pick .ldIxMemNn .ldIyMemNn)
  | 0x2B => .done (x.pick .decIx .decIy)
  | 0x2C => .done (x.pick .incIxl .incIyl)
  | 0x2D => .done (x.pick .decIxl .decIyl)
  | 0x2E => .take1 (x.pick .ldIxlN .ldIylN)
  | 0x34 => .take1 (x.pick .incMemIx .incMemIy)
  | 0x35 => .take1 (x.pick .decMemIx .decMemIy)
  | 0x36 => .take2 (x.pick .ldMemIxN .ldMemIyN)
  | _ => base0 op

/-- The same for `x = 1`: `(XY+d)` on one side leaves the other side's register as it is; without one, `H` and `L` are
the halves (40_load8 R215). -/
def indexed1 (x : Index) (op : Byte) : Entry :=
  match reg8Of (fieldY op), reg8Of (fieldZ op) with
  | none, none => .done .halt
  | some r, none => .take1 (x.pick (.ldRMemIx r) (.ldRMemIy r))
  | none, some s => .take1 fun d => x.pick (.ldMemIxR d s) (.ldMemIyR d s)
  | some r, some s =>
    match halfOf (fieldY op), halfOf (fieldZ op) with
    | some h, _ => .done (x.pick (.ldIxHalfP h s) (.ldIyHalfP h s))
    | none, some h => .done (x.pick (.ldPIxHalf r h) (.ldPIyHalf r h))
    | none, none => .done (.ldRR r s)

/-- The same for `x = 2`. -/
def indexed2 (x : Index) (op : Byte) : Entry :=
  match (fieldZ op).toNat with
  | 4 => .done (aluHi (aluOf (fieldY op)) x)
  | 5 => .done (aluLo (aluOf (fieldY op)) x)
  | 6 => .take1 (aluIdx (aluOf (fieldY op)) x)
  | _ => base2 op

/-- The same for `x = 3`. -/
def indexed3 (x : Index) (op : Byte) : Entry :=
  match op.toNat with
  | 0xCB => .done .prefixXyCb
  | 0xE1 => .done (x.pick .popIx .popIy)
  | 0xE3 => .done (x.pick .exMemSpIx .exMemSpIy)
  | 0xE5 => .done (x.pick .pushIx .pushIy)
  | 0xE9 => .done (x.pick .jpMemIx .jpMemIy)
  | 0xF9 => .done (x.pick .ldSpIx .ldSpIy)
  | _ => base3 op

/-- The base table under an index prefix. -/
def baseIndexed (x : Index) (op : Byte) : Entry :=
  match (fieldX op).toNat with
  | 0 => indexed0 x op
  | 1 => indexed1 x op
  | 2 => indexed2 x op
  | _ => indexed3 x op

/-- The base table in a prefix state. -/
def baseEntry (pfx : Pfx) (op : Byte) : Entry :=
  match pfx.index with
  | none => basePlain op
  | some x => baseIndexed x op

/-- The CB table (30_encoding R170). -/
def cbEntry (op : Byte) : Instr :=
  let y := fieldY op
  match (fieldX op).toNat, reg8Of (fieldZ op) with
  | 0, some r => rotReg (rotOf y) r
  | 0, none => rotMem (rotOf y)
  | 1, some r => .bitBR y r
  | 1, none => .bitBMemHl y
  | 2, some r => .resBR y r
  | 2, none => .resBMemHl y
  | _, some r => .setBR y r
  | _, none => .setBMemHl y

/-- The indexed-CB table (30_encoding R172). -/
def xycbEntry (x : Index) (d op : Byte) : Instr :=
  let y := fieldY op
  match (fieldX op).toNat, reg8Of (fieldZ op) with
  | 0, some r => rotIdxReg (rotOf y) x d r
  | 0, none => rotIdx (rotOf y) x d
  | 1, some r => x.pick (.bitBMemIxCopy y d r) (.bitBMemIyCopy y d r)
  | 1, none => x.pick (.bitBMemIx y d) (.bitBMemIy y d)
  | 2, some r => x.pick (.resBMemIxR y d r) (.resBMemIyR y d r)
  | 2, none => x.pick (.resBMemIx y d) (.resBMemIy y d)
  | _, some r => x.pick (.setBMemIxR y d r) (.setBMemIyR y d r)
  | _, none => x.pick (.setBMemIx y d) (.setBMemIy y d)

/-- The ED table for `x = 1` (30_encoding R171). -/
def ed1 (op : Byte) : Entry :=
  let y := fieldY op
  match (fieldZ op).toNat with
  | 0 =>
    match reg8Of y with
    | some r => .done (.inRC r)
    | none => .done .inFC
  | 1 =>
    match reg8Of y with
    | some r => .done (.outCR r)
    | none => .done .outC0
  | 2 => .done (if fieldQ op then .adcHlSs (pairOf (fieldP op)) else .sbcHlSs (pairOf (fieldP op)))
  | 3 =>
    if fieldQ op then Entry.takeWord (.ldDdMemNn (pairOf (fieldP op)))
    else Entry.takeWord fun nn => .ldMemNnDd nn (pairOf (fieldP op))
  | 4 => .done (if y = 0 then .neg else .negCopy y)
  | 5 =>
    match y.toNat with
    | 0 => .done .retn
    | 1 => .done .reti
    | _ => .done (.retnCopy y)
  | 6 =>
    match y.toNat with
    | 0 => .done .im0
    | 2 => .done .im1
    | 3 => .done .im2
    | 6 => .done .im1Copy
    | 7 => .done .im2Copy
    | _ => .done (.im0Copy y)
  | _ =>
    match y.toNat with
    | 0 => .done .ldIA
    | 1 => .done .ldRegRA
    | 2 => .done .ldAI
    | 3 => .done .ldARegR
    | 4 => .done .rrd
    | 5 => .done .rld
    | _ => .done (.nopEd7 (op.extractLsb' 3 1))

/-- The ED table for `x = 2`: the block instructions and no-operations. -/
def ed2 (op : Byte) : Instr :=
  match (fieldY op).toNat, (fieldZ op).toNat with
  | 4, 0 => .ldi
  | 4, 1 => .cpi
  | 4, 2 => .ini
  | 4, 3 => .outi
  | 5, 0 => .ldd
  | 5, 1 => .cpd
  | 5, 2 => .ind
  | 5, 3 => .outd
  | 6, 0 => .ldir
  | 6, 1 => .cpir
  | 6, 2 => .inir
  | 6, 3 => .otir
  | 7, 0 => .lddr
  | 7, 1 => .cpdr
  | 7, 2 => .indr
  | 7, 3 => .otdr
  | _, _ => if op.getLsbD 5 then .nopEdBlock (op.extractLsb' 3 2) (op.extractLsb' 0 2) else .nopEdMid (op.extractLsb' 0 5)

/-- The ED table (30_encoding R171). -/
def edEntry (op : Byte) : Entry :=
  match (fieldX op).toNat with
  | 0 => .done (.nopEdLow (op.extractLsb' 0 6))
  | 1 => ed1 op
  | 2 => .done (ed2 op)
  | _ => .done (.nopEdHigh (op.extractLsb' 0 6))

/-- What an opcode byte of the base table selects (30_encoding R157). -/
inductive Route where
  | index (p : Pfx)
  | ed
  | cb
  | base
  deriving DecidableEq, Repr

/-- The prefix routing (30_encoding R157). -/
def routeOf (op : Byte) : Route :=
  match op.toNat with
  | 0xCB => .cb
  | 0xDD => .index .dd
  | 0xED => .ed
  | 0xFD => .index .fd
  | _ => .base

/-- The instruction of a prefix byte alone: the index prefixes. -/
def Pfx.instr : Pfx → Instr
  | .fd => .prefixFd
  | _ => .prefixDd

/-- A decoded instruction: how many DD and FD bytes stood before it, and the bytes after it. -/
structure Decoded where
  instr : Instr
  prefixes : Nat
  rest : List Byte
  deriving DecidableEq, Repr

/-- An entry takes its operand bytes from a list. -/
def Entry.takeFrom (n : Nat) (bytes : List Byte) : Entry → Except Reject Decoded
  | .done i => .ok ⟨i, n, bytes⟩
  | .take1 k =>
    match bytes with
    | b :: rest => .ok ⟨k b, n, rest⟩
    | _ => .error .truncated
  | .take2 k =>
    match bytes with
    | b :: c :: rest => .ok ⟨k b c, n, rest⟩
    | _ => .error .truncated

/-- Decode under a prefix state, after `n` index prefixes (30_encoding R157). -/
def decodeFrom (pfx : Pfx) (n : Nat) : List Byte → Except Reject Decoded
  | [] => .error .truncated
  | op :: rest =>
    match routeOf op with
    | .index p => decodeFrom p (n + 1) rest
    | .ed =>
      match rest with
      | [] => .error .truncated
      | op2 :: rest => (edEntry op2).takeFrom n rest
    | .cb =>
      match pfx.index with
      | none =>
        match rest with
        | [] => .error .truncated
        | op2 :: rest => .ok ⟨cbEntry op2, n, rest⟩
      | some x =>
        match rest with
        | d :: op2 :: rest => .ok ⟨xycbEntry x d op2, n, rest⟩
        | _ => .error .truncated
    | .base => (baseEntry pfx op).takeFrom n rest

/-- Decode the instruction at the head of a list of bytes: total, and rejecting only what is cut short. -/
def decode (bytes : List Byte) : Except Reject Decoded := decodeFrom .none 0 bytes

/-- The bytes of an instruction, without redundant prefixes: the `encoding` patterns of spec/opcode_table.json. A row of
status `prefix` is its one byte, which is no whole instruction. -/
def encode : Instr → List Byte
  | .nop => [0x00]
  | .exAfAf => [0x08]
  | .djnz e => [0x10, e]
  | .jr e => [0x18, e]
  | .jrNz e => [0x20, e]
  | .jrZ e => [0x28, e]
  | .jrNc e => [0x30, e]
  | .jrC e => [0x38, e]
  | .ldDdNn p nn => [0b00#2 ++ p.code ++ 0b0001#4, lo nn, hi nn]
  | .ldHlNn nn => [0x21, lo nn, hi nn]
  | .ldIxNn nn => [0xDD, 0x21, lo nn, hi nn]
  | .ldIyNn nn => [0xFD, 0x21, lo nn, hi nn]
  | .addHlSs p => [0b00#2 ++ p.code ++ 0b1001#4]
  | .addIxPp p => [0xDD, 0b00#2 ++ p.code ++ 0b1001#4]
  | .addIyRr p => [0xFD, 0b00#2 ++ p.code ++ 0b1001#4]
  | .ldMemBcA => [0x02]
  | .ldMemDeA => [0x12]
  | .ldMemNnHl nn => [0x22, lo nn, hi nn]
  | .ldMemNnIx nn => [0xDD, 0x22, lo nn, hi nn]
  | .ldMemNnIy nn => [0xFD, 0x22, lo nn, hi nn]
  | .ldMemNnA nn => [0x32, lo nn, hi nn]
  | .ldAMemBc => [0x0A]
  | .ldAMemDe => [0x1A]
  | .ldHlMemNn nn => [0x2A, lo nn, hi nn]
  | .ldIxMemNn nn => [0xDD, 0x2A, lo nn, hi nn]
  | .ldIyMemNn nn => [0xFD, 0x2A, lo nn, hi nn]
  | .ldAMemNn nn => [0x3A, lo nn, hi nn]
  | .incSs p => [0b00#2 ++ p.code ++ 0b0011#4]
  | .incHl => [0x23]
  | .incIx => [0xDD, 0x23]
  | .incIy => [0xFD, 0x23]
  | .decSs p => [0b00#2 ++ p.code ++ 0b1011#4]
  | .decHl => [0x2B]
  | .decIx => [0xDD, 0x2B]
  | .decIy => [0xFD, 0x2B]
  | .incR r => [0b00#2 ++ r.code ++ 0b100#3]
  | .incIxh => [0xDD, 0x24]
  | .incIxl => [0xDD, 0x2C]
  | .incIyh => [0xFD, 0x24]
  | .incIyl => [0xFD, 0x2C]
  | .incMemHl => [0x34]
  | .incMemIx d => [0xDD, 0x34, d]
  | .incMemIy d => [0xFD, 0x34, d]
  | .decR r => [0b00#2 ++ r.code ++ 0b101#3]
  | .decIxh => [0xDD, 0x25]
  | .decIxl => [0xDD, 0x2D]
  | .decIyh => [0xFD, 0x25]
  | .decIyl => [0xFD, 0x2D]
  | .decMemHl => [0x35]
  | .decMemIx d => [0xDD, 0x35, d]
  | .decMemIy d => [0xFD, 0x35, d]
  | .ldRN r n => [0b00#2 ++ r.code ++ 0b110#3, n]
  | .ldIxhN n => [0xDD, 0x26, n]
  | .ldIxlN n => [0xDD, 0x2E, n]
  | .ldIyhN n => [0xFD, 0x26, n]
  | .ldIylN n => [0xFD, 0x2E, n]
  | .ldMemHlN n => [0x36, n]
  | .ldMemIxN d n => [0xDD, 0x36, d, n]
  | .ldMemIyN d n => [0xFD, 0x36, d, n]
  | .rlca => [0x07]
  | .rrca => [0x0F]
  | .rla => [0x17]
  | .rra => [0x1F]
  | .daa => [0x27]
  | .cpl => [0x2F]
  | .scf => [0x37]
  | .ccf => [0x3F]
  | .ldRR r s => [0b01#2 ++ r.code ++ s.code]
  | .ldIxHalfP h p => [0xDD, 0b01#2 ++ h.regField ++ p.code]
  | .ldPIxHalf p h => [0xDD, 0b01#2 ++ p.code ++ h.regField]
  | .ldIyHalfP h p => [0xFD, 0b01#2 ++ h.regField ++ p.code]
  | .ldPIyHalf p h => [0xFD, 0b01#2 ++ p.code ++ h.regField]
  | .ldRMemHl r => [0b01#2 ++ r.code ++ 0b110#3]
  | .ldRMemIx r d => [0xDD, 0b01#2 ++ r.code ++ 0b110#3, d]
  | .ldRMemIy r d => [0xFD, 0b01#2 ++ r.code ++ 0b110#3, d]
  | .ldMemHlR r => [0b01110#5 ++ r.code]
  | .ldMemIxR d r => [0xDD, 0b01110#5 ++ r.code, d]
  | .ldMemIyR d r => [0xFD, 0b01110#5 ++ r.code, d]
  | .halt => [0x76]
  | .addAR r => [0b10000#5 ++ r.code]
  | .addAIxh => [0xDD, 0x84]
  | .addAIxl => [0xDD, 0x85]
  | .addAIyh => [0xFD, 0x84]
  | .addAIyl => [0xFD, 0x85]
  | .addAMemHl => [0x86]
  | .addAMemIx d => [0xDD, 0x86, d]
  | .addAMemIy d => [0xFD, 0x86, d]
  | .addAN n => [0xC6, n]
  | .adcAR r => [0b10001#5 ++ r.code]
  | .adcAIxh => [0xDD, 0x8C]
  | .adcAIxl => [0xDD, 0x8D]
  | .adcAIyh => [0xFD, 0x8C]
  | .adcAIyl => [0xFD, 0x8D]
  | .adcAMemHl => [0x8E]
  | .adcAMemIx d => [0xDD, 0x8E, d]
  | .adcAMemIy d => [0xFD, 0x8E, d]
  | .adcAN n => [0xCE, n]
  | .subAR r => [0b10010#5 ++ r.code]
  | .subAIxh => [0xDD, 0x94]
  | .subAIxl => [0xDD, 0x95]
  | .subAIyh => [0xFD, 0x94]
  | .subAIyl => [0xFD, 0x95]
  | .subAMemHl => [0x96]
  | .subAMemIx d => [0xDD, 0x96, d]
  | .subAMemIy d => [0xFD, 0x96, d]
  | .subAN n => [0xD6, n]
  | .sbcAR r => [0b10011#5 ++ r.code]
  | .sbcAIxh => [0xDD, 0x9C]
  | .sbcAIxl => [0xDD, 0x9D]
  | .sbcAIyh => [0xFD, 0x9C]
  | .sbcAIyl => [0xFD, 0x9D]
  | .sbcAMemHl => [0x9E]
  | .sbcAMemIx d => [0xDD, 0x9E, d]
  | .sbcAMemIy d => [0xFD, 0x9E, d]
  | .sbcAN n => [0xDE, n]
  | .andAR r => [0b10100#5 ++ r.code]
  | .andAIxh => [0xDD, 0xA4]
  | .andAIxl => [0xDD, 0xA5]
  | .andAIyh => [0xFD, 0xA4]
  | .andAIyl => [0xFD, 0xA5]
  | .andAMemHl => [0xA6]
  | .andAMemIx d => [0xDD, 0xA6, d]
  | .andAMemIy d => [0xFD, 0xA6, d]
  | .andAN n => [0xE6, n]
  | .xorAR r => [0b10101#5 ++ r.code]
  | .xorAIxh => [0xDD, 0xAC]
  | .xorAIxl => [0xDD, 0xAD]
  | .xorAIyh => [0xFD, 0xAC]
  | .xorAIyl => [0xFD, 0xAD]
  | .xorAMemHl => [0xAE]
  | .xorAMemIx d => [0xDD, 0xAE, d]
  | .xorAMemIy d => [0xFD, 0xAE, d]
  | .xorAN n => [0xEE, n]
  | .orAR r => [0b10110#5 ++ r.code]
  | .orAIxh => [0xDD, 0xB4]
  | .orAIxl => [0xDD, 0xB5]
  | .orAIyh => [0xFD, 0xB4]
  | .orAIyl => [0xFD, 0xB5]
  | .orAMemHl => [0xB6]
  | .orAMemIx d => [0xDD, 0xB6, d]
  | .orAMemIy d => [0xFD, 0xB6, d]
  | .orAN n => [0xF6, n]
  | .cpAR r => [0b10111#5 ++ r.code]
  | .cpAIxh => [0xDD, 0xBC]
  | .cpAIxl => [0xDD, 0xBD]
  | .cpAIyh => [0xFD, 0xBC]
  | .cpAIyl => [0xFD, 0xBD]
  | .cpAMemHl => [0xBE]
  | .cpAMemIx d => [0xDD, 0xBE, d]
  | .cpAMemIy d => [0xFD, 0xBE, d]
  | .cpAN n => [0xFE, n]
  | .retCc cc => [0b11#2 ++ cc.code ++ 0b000#3]
  | .popQq q => [0b11#2 ++ q.code ++ 0b0001#4]
  | .popHl => [0xE1]
  | .popIx => [0xDD, 0xE1]
  | .popIy => [0xFD, 0xE1]
  | .ret => [0xC9]
  | .exx => [0xD9]
  | .jpMemHl => [0xE9]
  | .jpMemIx => [0xDD, 0xE9]
  | .jpMemIy => [0xFD, 0xE9]
  | .ldSpHl => [0xF9]
  | .ldSpIx => [0xDD, 0xF9]
  | .ldSpIy => [0xFD, 0xF9]
  | .jpCcNn cc nn => [0b11#2 ++ cc.code ++ 0b010#3, lo nn, hi nn]
  | .jpNn nn => [0xC3, lo nn, hi nn]
  | .prefixCb => [0xCB]
  | .prefixXyCb => [0xCB]
  | .outNA n => [0xD3, n]
  | .inAN n => [0xDB, n]
  | .exMemSpHl => [0xE3]
  | .exMemSpIx => [0xDD, 0xE3]
  | .exMemSpIy => [0xFD, 0xE3]
  | .exDeHl => [0xEB]
  | .di => [0xF3]
  | .ei => [0xFB]
  | .callCcNn cc nn => [0b11#2 ++ cc.code ++ 0b100#3, lo nn, hi nn]
  | .pushQq q => [0b11#2 ++ q.code ++ 0b0101#4]
  | .pushHl => [0xE5]
  | .pushIx => [0xDD, 0xE5]
  | .pushIy => [0xFD, 0xE5]
  | .callNn nn => [0xCD, lo nn, hi nn]
  | .prefixDd => [0xDD]
  | .prefixEd => [0xED]
  | .prefixFd => [0xFD]
  | .rst t => [0b11#2 ++ t ++ 0b111#3]
  | .rlcR r => [0xCB, 0b00000#5 ++ r.code]
  | .rlcMemHl => [0xCB, 0x06]
  | .rrcR r => [0xCB, 0b00001#5 ++ r.code]
  | .rrcMemHl => [0xCB, 0x0E]
  | .rlR r => [0xCB, 0b00010#5 ++ r.code]
  | .rlMemHl => [0xCB, 0x16]
  | .rrR r => [0xCB, 0b00011#5 ++ r.code]
  | .rrMemHl => [0xCB, 0x1E]
  | .slaR r => [0xCB, 0b00100#5 ++ r.code]
  | .slaMemHl => [0xCB, 0x26]
  | .sraR r => [0xCB, 0b00101#5 ++ r.code]
  | .sraMemHl => [0xCB, 0x2E]
  | .sllR r => [0xCB, 0b00110#5 ++ r.code]
  | .sllMemHl => [0xCB, 0x36]
  | .srlR r => [0xCB, 0b00111#5 ++ r.code]
  | .srlMemHl => [0xCB, 0x3E]
  | .bitBR b r => [0xCB, 0b01#2 ++ b ++ r.code]
  | .bitBMemHl b => [0xCB, 0b01#2 ++ b ++ 0b110#3]
  | .resBR b r => [0xCB, 0b10#2 ++ b ++ r.code]
  | .resBMemHl b => [0xCB, 0b10#2 ++ b ++ 0b110#3]
  | .setBR b r => [0xCB, 0b11#2 ++ b ++ r.code]
  | .setBMemHl b => [0xCB, 0b11#2 ++ b ++ 0b110#3]
  | .rlcMemIx d => [0xDD, 0xCB, d, 0x06]
  | .rlcMemIxR d r => [0xDD, 0xCB, d, 0b00000#5 ++ r.code]
  | .rrcMemIx d => [0xDD, 0xCB, d, 0x0E]
  | .rrcMemIxR d r => [0xDD, 0xCB, d, 0b00001#5 ++ r.code]
  | .rlMemIx d => [0xDD, 0xCB, d, 0x16]
  | .rlMemIxR d r => [0xDD, 0xCB, d, 0b00010#5 ++ r.code]
  | .rrMemIx d => [0xDD, 0xCB, d, 0x1E]
  | .rrMemIxR d r => [0xDD, 0xCB, d, 0b00011#5 ++ r.code]
  | .slaMemIx d => [0xDD, 0xCB, d, 0x26]
  | .slaMemIxR d r => [0xDD, 0xCB, d, 0b00100#5 ++ r.code]
  | .sraMemIx d => [0xDD, 0xCB, d, 0x2E]
  | .sraMemIxR d r => [0xDD, 0xCB, d, 0b00101#5 ++ r.code]
  | .sllMemIx d => [0xDD, 0xCB, d, 0x36]
  | .sllMemIxR d r => [0xDD, 0xCB, d, 0b00110#5 ++ r.code]
  | .srlMemIx d => [0xDD, 0xCB, d, 0x3E]
  | .srlMemIxR d r => [0xDD, 0xCB, d, 0b00111#5 ++ r.code]
  | .bitBMemIx b d => [0xDD, 0xCB, d, 0b01#2 ++ b ++ 0b110#3]
  | .bitBMemIxCopy b d z => [0xDD, 0xCB, d, 0b01#2 ++ b ++ z.code]
  | .resBMemIx b d => [0xDD, 0xCB, d, 0b10#2 ++ b ++ 0b110#3]
  | .resBMemIxR b d r => [0xDD, 0xCB, d, 0b10#2 ++ b ++ r.code]
  | .setBMemIx b d => [0xDD, 0xCB, d, 0b11#2 ++ b ++ 0b110#3]
  | .setBMemIxR b d r => [0xDD, 0xCB, d, 0b11#2 ++ b ++ r.code]
  | .rlcMemIy d => [0xFD, 0xCB, d, 0x06]
  | .rlcMemIyR d r => [0xFD, 0xCB, d, 0b00000#5 ++ r.code]
  | .rrcMemIy d => [0xFD, 0xCB, d, 0x0E]
  | .rrcMemIyR d r => [0xFD, 0xCB, d, 0b00001#5 ++ r.code]
  | .rlMemIy d => [0xFD, 0xCB, d, 0x16]
  | .rlMemIyR d r => [0xFD, 0xCB, d, 0b00010#5 ++ r.code]
  | .rrMemIy d => [0xFD, 0xCB, d, 0x1E]
  | .rrMemIyR d r => [0xFD, 0xCB, d, 0b00011#5 ++ r.code]
  | .slaMemIy d => [0xFD, 0xCB, d, 0x26]
  | .slaMemIyR d r => [0xFD, 0xCB, d, 0b00100#5 ++ r.code]
  | .sraMemIy d => [0xFD, 0xCB, d, 0x2E]
  | .sraMemIyR d r => [0xFD, 0xCB, d, 0b00101#5 ++ r.code]
  | .sllMemIy d => [0xFD, 0xCB, d, 0x36]
  | .sllMemIyR d r => [0xFD, 0xCB, d, 0b00110#5 ++ r.code]
  | .srlMemIy d => [0xFD, 0xCB, d, 0x3E]
  | .srlMemIyR d r => [0xFD, 0xCB, d, 0b00111#5 ++ r.code]
  | .bitBMemIy b d => [0xFD, 0xCB, d, 0b01#2 ++ b ++ 0b110#3]
  | .bitBMemIyCopy b d z => [0xFD, 0xCB, d, 0b01#2 ++ b ++ z.code]
  | .resBMemIy b d => [0xFD, 0xCB, d, 0b10#2 ++ b ++ 0b110#3]
  | .resBMemIyR b d r => [0xFD, 0xCB, d, 0b10#2 ++ b ++ r.code]
  | .setBMemIy b d => [0xFD, 0xCB, d, 0b11#2 ++ b ++ 0b110#3]
  | .setBMemIyR b d r => [0xFD, 0xCB, d, 0b11#2 ++ b ++ r.code]
  | .inRC r => [0xED, 0b01#2 ++ r.code ++ 0b000#3]
  | .inFC => [0xED, 0x70]
  | .outCR r => [0xED, 0b01#2 ++ r.code ++ 0b001#3]
  | .outC0 => [0xED, 0x71]
  | .sbcHlSs p => [0xED, 0b01#2 ++ p.code ++ 0b0010#4]
  | .adcHlSs p => [0xED, 0b01#2 ++ p.code ++ 0b1010#4]
  | .ldMemNnDd nn p => [0xED, 0b01#2 ++ p.code ++ 0b0011#4, lo nn, hi nn]
  | .ldDdMemNn p nn => [0xED, 0b01#2 ++ p.code ++ 0b1011#4, lo nn, hi nn]
  | .neg => [0xED, 0x44]
  | .negCopy y => [0xED, 0b01#2 ++ y ++ 0b100#3]
  | .retn => [0xED, 0x45]
  | .reti => [0xED, 0x4D]
  | .retnCopy y => [0xED, 0b01#2 ++ y ++ 0b101#3]
  | .im0 => [0xED, 0x46]
  | .im1 => [0xED, 0x56]
  | .im2 => [0xED, 0x5E]
  | .im0Copy y => [0xED, 0b01#2 ++ y ++ 0b110#3]
  | .im1Copy => [0xED, 0x76]
  | .im2Copy => [0xED, 0x7E]
  | .ldIA => [0xED, 0x47]
  | .ldRegRA => [0xED, 0x4F]
  | .ldAI => [0xED, 0x57]
  | .ldARegR => [0xED, 0x5F]
  | .rrd => [0xED, 0x67]
  | .rld => [0xED, 0x6F]
  | .nopEd7 x => [0xED, 0b0111#4 ++ x ++ 0b111#3]
  | .ldi => [0xED, 0xA0]
  | .cpi => [0xED, 0xA1]
  | .ini => [0xED, 0xA2]
  | .outi => [0xED, 0xA3]
  | .ldd => [0xED, 0xA8]
  | .cpd => [0xED, 0xA9]
  | .ind => [0xED, 0xAA]
  | .outd => [0xED, 0xAB]
  | .ldir => [0xED, 0xB0]
  | .cpir => [0xED, 0xB1]
  | .inir => [0xED, 0xB2]
  | .otir => [0xED, 0xB3]
  | .lddr => [0xED, 0xB8]
  | .cpdr => [0xED, 0xB9]
  | .indr => [0xED, 0xBA]
  | .otdr => [0xED, 0xBB]
  | .nopEdLow x => [0xED, 0b00#2 ++ x]
  | .nopEdHigh x => [0xED, 0b11#2 ++ x]
  | .nopEdMid x => [0xED, 0b100#3 ++ x]
  | .nopEdBlock y x => [0xED, 0b101#3 ++ y ++ 0b1#1 ++ x]

/-- The instruction's own encoding begins with an index prefix (formats `XY_...` of 30_encoding R161). -/
def Instr.hasIndexPrefix (i : Instr) : Bool :=
  match encode i with
  | b :: _ :: _ => b == 0xDD || b == 0xFD
  | _ => false

/-- The DD and FD bytes among `n` that the form does not need (30_encoding R175). -/
def redundantPrefixes (n : Nat) (i : Instr) : Nat := if i.hasIndexPrefix then n - 1 else n

/-- The four bytes from the first byte of a table word on: `w` numbered as spec/opcode_table.json numbers it, zeros above. -/
def tableBytes (nbits w : Nat) : List Byte :=
  let v := w % 2 ^ nbits
  [byteOf v 0, byteOf v 1, byteOf v 2, byteOf v 3]

/-- The prefix byte alone, for the table's rows of status `prefix`, which have length 1 (30_encoding R179). -/
def prefixAlone (op : Byte) : Option Instr :=
  match routeOf op with
  | .index p => some p.instr
  | .ed => some .prefixEd
  | .cb => some .prefixCb
  | .base => none

/-- What the decoder reads from a table word; a word of one byte that is a prefix byte is that prefix. -/
def decodeTableWord (nbits w : Nat) : Option Instr :=
  match (if nbits ≤ 8 then prefixAlone (byteOf (w % 2 ^ nbits) 0) else none) with
  | some i => some i
  | none => (decode (tableBytes nbits w)).toOption.map (·.instr)

end Sys2Proof
end

