-- ==== Sys2Proof/Config.lean ====
section
/-! DEFINITION. What the calculator model or the implementation fixes (00_scope R7), as plain data, and the values the
spec leaves open, as constants without a body. State carries a `Config` in its field `cfg`; no rule writes it. -/

namespace Sys2Proof

/-- The size of a bank, a page and the step between two base offsets (20_memory R61, 10_state R32). -/
abbrev pageSize : Nat := 16384

/-- `MODEL_CLASS` (00_scope R7). -/
inductive ModelClass where
  | preFlash | flashEra | unrecognized
  deriving DecidableEq, Repr

/-- A parameter of the spec that is a function with a default: the default, or the `k`-th uninterpreted function. -/
inductive Rule where
  | default
  | uninterpreted (k : Nat)
  deriving DecidableEq, Repr

/-- One bank binding of `RESET_MAP_PREFLASH` (00_scope R7, R9). The parameter gives all the fields of a slot (10_state R32)
but `base_offset`, which the slot's invariant fixes (log 3). -/
structure Binding where
  isRam : Bool
  page : Byte
  readOnly : Bool
  noExec : Bool
  deriving DecidableEq, Repr, Inhabited

/-- `RESET_MAP_PREFLASH`: the four bank bindings of a pre-flash model after reset (70_reset R604). -/
structure ResetMap where
  bank0 : Binding
  bank1 : Binding
  bank2 : Binding
  bank3 : Binding
  deriving DecidableEq, Repr, Inhabited

/-- `DELAY(kind, store)` in T-states (20_memory R81). -/
structure Delays where
  fetchRam : Nat
  fetchFlash : Nat
  readRam : Nat
  readFlash : Nat
  writeRam : Nat
  writeFlash : Nat
  deriving DecidableEq, Repr

/-- The five hooks of the CPU and the PIO breakpoint callback (60_exceptions R586): absent, or the `k`-th handler. -/
structure Hooks where
  execViolation : Option Nat
  invalidFlash : Option Nat
  memReadBreak : Option Nat
  memWriteBreak : Option Nat
  lcdEnqueue : Option Nat
  pioBreakpoint : Option Nat
  deriving DecidableEq, Repr

/-- The parameters of 00_scope R7 that are not devices or interrupt entries (those have state and stand in State). -/
structure Config where
  /-- `MODEL_CLASS` -/
  modelClass : ModelClass
  /-- `FLASH_VERSION` -/
  flashVersion : Nat
  /-- `RAM_VERSION` -/
  ramVersion : Nat
  /-- `FLASH_PAGES` -/
  flashPages : Nat
  /-- `RAM_PAGES` -/
  ramPages : Nat
  /-- `CAP_A`, the model capability bit of the flash gate (20_memory R101) -/
  capA : Bool
  /-- `CAP_B` -/
  capB : Bool
  /-- `CAP_C` -/
  capC : Bool
  /-- `AUTOSELECT_ID(2)` -/
  autoselectId2 : Byte
  /-- `AUTOSELECT_ID(4)` -/
  autoselectId4 : Byte
  /-- `BOOT_SLOT2_BIT0(FLASH_VERSION)`: `none` is the default (version 1 cleared, any other set) -/
  bootSlot2Bit0 : Option Bool
  /-- `SECTOR_RANGE` -/
  sectorRange : Rule
  /-- `EXEC_RULE` -/
  execRule : Rule
  /-- `PORT_PROTECT_RULE` -/
  portProtectRule : Rule
  /-- `HALT_TSTATES` -/
  haltTstates : Nat
  /-- `HALT_R_STEP` -/
  haltRStep : Nat
  /-- `IM0_TSTATES` -/
  im0Tstates : Nat
  /-- `IM1_VECTOR` -/
  im1Vector : Word
  /-- `IM1_TSTATES` -/
  im1Tstates : Nat
  /-- `IM2_TSTATES` -/
  im2Tstates : Nat
  /-- `DELAY(kind, store)` -/
  delays : Delays
  /-- `TIMING_GATE` -/
  timingGate : Bool
  /-- `FREQ`, T-states per second -/
  freq : Rat
  /-- `REMAP27_MAX_UNITS` -/
  remap27MaxUnits : Nat
  /-- `REMAP_UNIT` -/
  remapUnit : Nat
  /-- `REMAP_IN_BOOT_VIEW` -/
  remapInBootView : Bool
  /-- `REMAP28_BASE` -/
  remap28Base : Nat
  /-- `RESET_MAP_PREFLASH` -/
  resetMapPreFlash : ResetMap
  /-- `HOOKS` -/
  hooks : Hooks
  deriving DecidableEq, Repr

/-- Free value `n`: a byte no rule determines (`any`, 00_scope R8). -/
opaque Config.freeByte : Nat → Byte

/-- Open: `AUTOSELECT_ID(2)` (00_scope R7, 92_eei_decisions D16). -/
opaque Config.openAutoselectId2 : Byte

/-- Open: `AUTOSELECT_ID(4)` (00_scope R7, 92_eei_decisions D16). -/
opaque Config.openAutoselectId4 : Byte

/-- Open: one less than the numerator of `FREQ` (00_scope R7, 92_eei_decisions D28). -/
opaque Config.openFreqNum : Nat

/-- Open: one less than the denominator of `FREQ`. -/
opaque Config.openFreqDen : Nat

/-- Open: `RESET_MAP_PREFLASH` (00_scope R7, 70_reset R604). -/
opaque Config.openResetMap : ResetMap

/-- The `k`-th uninterpreted `SECTOR_RANGE(page, offset)`: start and end (exclusive) in the Flash store (20_memory R127). -/
opaque Config.sectorRangeOf : Nat → Byte → Nat → Nat × Nat

/-- The block of a page that an offset lies in, for the profiler: the block size is not in the source (60_exceptions R584). -/
opaque Config.profilerBlock : Nat → Nat

/-- No hook is present: the default (00_scope R7). -/
def Hooks.absent : Hooks := ⟨none, none, none, none, none, none⟩

/-- No access adds time: the default (20_memory R81). -/
def Delays.zero : Delays := ⟨0, 0, 0, 0, 0, 0⟩

/-- The defaults of 00_scope R7. `FLASH_VERSION`, `FLASH_PAGES` and `RAM_PAGES` are open there; the values are those of
95_test_vectors (DESIGN CHOICE, log 2). The other open parameters are constants without a body (log 3). -/
def Config.standard : Config where
  modelClass := .flashEra
  flashVersion := 2
  ramVersion := 1
  flashPages := 32
  ramPages := 2
  capA := false
  capB := false
  capC := false
  autoselectId2 := Config.openAutoselectId2
  autoselectId4 := Config.openAutoselectId4
  bootSlot2Bit0 := none
  sectorRange := .default
  execRule := .default
  portProtectRule := .default
  haltTstates := 4
  haltRStep := 1
  im0Tstates := 2
  im1Vector := 0x0038
  im1Tstates := 13
  im2Tstates := 19
  delays := Delays.zero
  timingGate := false
  freq := ((Config.openFreqNum : Rat) + 1) / ((Config.openFreqDen : Rat) + 1)
  remap27MaxUnits := 18
  remapUnit := 64
  remapInBootView := false
  remap28Base := 0
  resetMapPreFlash := Config.openResetMap
  hooks := Hooks.absent

end Sys2Proof
end

