-- ==== Sys2Proof/Machine/State.lean ====
section
/-! DEFINITION. The state of the core as plain data, in the source's grouping (10_state: the CPU composes a memory
context, a timer context, a PIO context and debug state), why a step can stop, and the state right after reset. -/

namespace Sys2Proof.Machine

/-- A store's contents: addresses strictly rising, no entry equal to what an unlisted address reads as. -/
abbrev Memory := List Host.Cell

/-- What an address of either store reads as when it is not listed: 0x00, the value of every byte at construction
(10_state R30, 70_reset R602; log 1). -/
def unlistedByte : Byte := 0

/-- `IM`, the interrupt mode (10_state R20). -/
inductive IntMode where
  | im0 | im1 | im2
  deriving DecidableEq, Repr

/-- `view`, the active-view selector (10_state R35). -/
inductive View where
  | normal | bootMapped
  deriving DecidableEq, Repr

/-- `flash_state` (10_state R36), in the order the spec lists the twelve states. -/
inductive FlashState where
  | read | aa | s55 | program | erase | eraseAa | erase55 | fastmode | fastmodeProg | fastmodeExit | autoselect | error
  deriving DecidableEq, Repr

/-- A canonical address: a physical byte, whatever the bank mapping (10_state R41). -/
structure Canon where
  page : Nat
  offset : Nat
  isRam : Bool
  deriving DecidableEq, Repr

/-- A break mark beside a byte of a store: the two types this spec gives it and the optional conditional attachment,
which the source does not describe (10_state R31, 91_not_in_source N20; log 11). -/
structure BreakMark where
  byte : Canon
  onRead : Bool
  onWrite : Bool
  condition : Option Nat
  deriving DecidableEq, Repr

/-- A bank slot (10_state R32). `store` is RAM exactly when `isRam`, so one of the two is kept (log 21). -/
structure BankSlot where
  isRam : Bool
  page : Byte
  baseOffset : Nat
  readOnly : Bool
  noExec : Bool
  deriving DecidableEq, Repr

/-- A bank table: five bank slots (10_state R33). -/
structure BankTable where
  slot0 : BankSlot
  slot1 : BankSlot
  slot2 : BankSlot
  slot3 : BankSlot
  slot4 : BankSlot
  deriving DecidableEq, Repr

/-- The register file (10_state R11 to R20). The main pairs are held as their halves. -/
structure Regs where
  a : Byte
  f : Byte
  b : Byte
  c : Byte
  d : Byte
  e : Byte
  h : Byte
  l : Byte
  /-- `AF'` -/
  afAlt : Word
  /-- `BC'` -/
  bcAlt : Word
  /-- `DE'` -/
  deAlt : Word
  /-- `HL'` -/
  hlAlt : Word
  ix : Word
  iy : Word
  sp : Word
  pc : Word
  /-- `I`, the interrupt vector register -/
  i : Byte
  /-- `R`, the refresh register -/
  r : Byte
  iff1 : Bool
  iff2 : Bool
  im : IntMode
  deriving DecidableEq, Repr

/-- The bus latch and the execution-state flags (10_state R21 to R27). -/
structure Control where
  bus : Byte
  halt : Bool
  read : Bool
  write : Bool
  input : Bool
  output : Bool
  interrupt : Bool
  eiBlock : Bool
  /-- the current index prefix -/
  pfx : Pfx
  deriving DecidableEq, Repr

/-- The memory context (10_state R30 to R40). -/
structure MemCtx where
  ram : Memory
  flash : Memory
  marks : List BreakMark
  normal : BankTable
  view : View
  flashState : FlashState
  flashLocked : Bool
  flashError : Bool
  remap27 : Byte
  remap28 : Byte
  bootUnmapDone : Bool
  deriving DecidableEq, Repr

/-- The timer context (10_state R42). -/
structure Timer where
  tstates : Nat
  /-- seconds -/
  elapsed : Rat
  deriving DecidableEq, Repr

/-- What a device does when it runs (60_exceptions R550). `latch`, `irq` and `lock` are the test devices of
95_test_vectors; `uninterpreted k` is any other device, whose action is a free list of core operations (log 6). -/
inductive DeviceKind where
  | latch
  | irq (vec : Byte)
  | lock
  | uninterpreted (k : Nat)
  deriving DecidableEq, Repr

/-- A slot of the device table: the device capability and the device's own state (10_state R43, 60_exceptions R550).
`run` is `Device.run` of the kind; `clear` is `Device.clear`, which puts `own` back to `initial` (log 6). -/
structure Device where
  port : Byte
  active : Bool
  breakpoint : Bool
  protectedPort : Bool
  kind : DeviceKind
  /-- the own state the device begins in -/
  initial : Nat
  own : Nat
  deriving DecidableEq, Repr

/-- An interrupt polling entry (10_state R44). -/
structure IntEntry where
  value : Byte
  skipFactor : Nat
  skipCount : Nat
  deriving DecidableEq, Repr

/-- The PIO context (10_state R43 to R45). A port with no element in `devices` is an empty slot (`active = 0`). -/
structure Pio where
  devices : List Device
  intEntries : List IntEntry
  ioCache : Byte
  deriving DecidableEq, Repr

/-- A record of the reverse-history ring (10_state R47). Which flags and which two registers is not in the source:
those three are free values (log 9). -/
structure HistoryRecord where
  flags : Byte
  bus : Byte
  r : Byte
  aux0 : Byte
  aux1 : Byte
  deriving DecidableEq, Repr

/-- A bucket of the profiler's histogram (10_state R48, 60_exceptions R584). -/
structure ProfileBucket where
  bank : Nat
  page : Nat
  block : Nat
  cycles : Nat
  deriving DecidableEq, Repr

/-- Debug state, write-only for the core (10_state R47, R48). -/
structure Debug where
  /-- at most 512 records, in slot order -/
  history : List HistoryRecord
  historyIndex : Nat
  profiling : Bool
  histogram : List ProfileBucket
  deriving DecidableEq, Repr

/-- An event that a hook, if present, is called with (60_exceptions R520, R586). -/
inductive HookCall where
  | execViolation (pc : Word)
  | invalidFlash (a : Word) (v : Byte)
  | memReadBreak (byte : Canon)
  | memWriteBreak (byte : Canon)
  | pioBreakpoint (port : Byte)
  deriving DecidableEq, Repr

/-- A line of the core's output stream: a warning (60_exceptions R557) or an event raised (log 12). -/
inductive LogLine where
  | noAnswerIn (port : Byte)
  | noAnswerOut (port : Byte)
  | event (call : HookCall)
  deriving DecidableEq, Repr

/-- The state of the core. `log`, `free` and `cfg` are the model's own fields (logs 12, 8, 2). -/
structure State where
  regs : Regs
  ctl : Control
  mem : MemCtx
  timer : Timer
  pio : Pio
  dbg : Debug
  /-- output stream, newest line first -/
  log : List LogLine
  /-- how many free values have been drawn -/
  free : Nat
  /-- the parameters, constant in a run -/
  cfg : Config
  deriving DecidableEq, Repr

/-- Why the machine stops with a fault. -/
inductive Fault where
  /-- Raised by every access to a store (20_memory R69): the physical address is at or beyond the size of the store, so
  the byte does not exist; `isRam` names the store. Safe: the spec gives such an access no meaning. -/
  | outsideStore (isRam : Bool) (addr : Nat)
  deriving DecidableEq, Repr

/-- Why a step has no meaning in this model. -/
inductive Refusal where
  /-- Raised only by an arm of exec whose instruction has no meaning yet. Safe. -/
  | notModelled (mnemonic : String)
  /-- Raised by changePage with a page that is not smaller than the store's page count (20_memory R70). Safe. -/
  | noSuchPage (isRam : Bool) (page : Byte)
  /-- Raised by Reset() of an unrecognized model: the bank table it leaves is unspecified (60_exceptions R525, 70_reset
  R605). Safe. -/
  | unrecognizedModel
  /-- Raised by the prefix routing when a run of index prefixes goes on for 65536 opcode fetches (70_reset R632). Safe. -/
  | prefixRunTooLong
  /-- Raised by a sector erase whose range is not inside the Flash store (20_memory R127 needs FLASH_PAGES >= 4). Safe. -/
  | sectorRangeOutside (page : Byte)
  deriving DecidableEq, Repr

/-- The three outcomes of a step of this machine. -/
abbrev Outcome := Host.Outcome State Fault Refusal

/-- The outcome of a primitive inside a step: a value and the state it leaves, or a stop. -/
inductive Res (α : Type) where
  | ok (v : α) (s : State)
  | fault (f : Fault)
  | refused (r : Refusal)
  deriving Repr

/-- `slot(st, pg)` of 70_reset R601. -/
def BankSlot.fresh (isRam : Bool) (page : Byte) : BankSlot :=
  { isRam := isRam, page := page, baseOffset := page.toNat * pageSize, readOnly := false, noExec := false }

/-- The register file after `Reset()` (10_state R50). -/
def Regs.reset : Regs :=
  { a := 0, f := 0, b := 0, c := 0, d := 0, e := 0, h := 0, l := 0, afAlt := 0, bcAlt := 0, deAlt := 0, hlAlt := 0,
    ix := 0, iy := 0, sp := 0, pc := 0, i := 0, r := 0, iff1 := false, iff2 := false, im := .im1 }

/-- The bus latch and flags after `Reset()` (10_state R50). -/
def Control.reset : Control :=
  { bus := 0, halt := false, read := false, write := false, input := false, output := false, interrupt := false,
    eiBlock := false, pfx := .none }

/-- The normal bank table of a flash-era model after `Reset()` (10_state R33). -/
def BankTable.flashEra (flashPages : Nat) : BankTable :=
  { slot0 := BankSlot.fresh false (BitVec.ofNat 8 (flashPages - 1)), slot1 := BankSlot.fresh false 0,
    slot2 := BankSlot.fresh false 0, slot3 := BankSlot.fresh true 0, slot4 := BankSlot.fresh true 0 }

/-- The state right after `init` and `Reset()` with the parameters of `Config.standard` (70_reset R601, R602). -/
def State.reset : State where
  regs := Regs.reset
  ctl := Control.reset
  mem :=
    { ram := [], flash := [], marks := [], normal := BankTable.flashEra 32, view := .normal, flashState := .read,
      flashLocked := true, flashError := false, remap27 := 0, remap28 := 0, bootUnmapDone := false }
  timer := { tstates := 0, elapsed := 0 }
  pio := { devices := [], intEntries := [], ioCache := 0 }
  dbg := { history := [], historyIndex := 0, profiling := false, histogram := [] }
  log := []
  free := 0
  cfg := Config.standard

end Sys2Proof.Machine
end

