-- ==== Sys2Proof/Machine/Memory.lean ====
section
/-! DEFINITION. Operations on the contents of a store (10_state R30), which keep its canonical form. -/

namespace Sys2Proof.Machine

/-- The byte at an address of a store. -/
def Memory.get : Memory → Nat → Byte
  | [], _ => unlistedByte
  | (k, v) :: m, a => if a = k then v else Memory.get m a

/-- Put a byte in front of a memory, or nothing when the address reads as it unlisted. -/
def Memory.cons (a : Nat) (v : Byte) (m : Memory) : Memory :=
  if v = unlistedByte then m else (a, v) :: m

/-- Write one byte. -/
def Memory.set : Memory → Nat → Byte → Memory
  | [], a, v => Memory.cons a v []
  | (k, w) :: m, a, v =>
    if a < k then Memory.cons a v ((k, w) :: m)
    else if a = k then Memory.cons a v m
    else (k, w) :: Memory.set m a v

/-- `n` consecutive cells from `a` on, all holding `v`. -/
def Memory.run (v : Byte) : Nat → Nat → Memory
  | _, 0 => []
  | a, n + 1 => (a, v) :: Memory.run v (a + 1) n

/-- Write `v` to the `n` addresses from `a` on. -/
def Memory.fill (m : Memory) (a n : Nat) (v : Byte) : Memory :=
  m.filter (fun c => c.1 < a) ++ (if v = unlistedByte then [] else Memory.run v a n)
    ++ m.filter (fun c => a + n ≤ c.1)

/-- The addresses are at least `lo` and strictly rising, and no entry is the unlisted byte. -/
def Memory.wfFrom (lo : Nat) : Memory → Bool
  | [] => true
  | (k, v) :: m => decide (lo ≤ k) && v != unlistedByte && Memory.wfFrom (k + 1) m

/-- The canonical form. -/
def Memory.wf (m : Memory) : Bool := Memory.wfFrom 0 m

/-- A byte of the store `isRam` names, at a physical address. -/
def storeGet (s : State) (isRam : Bool) (addr : Nat) : Byte :=
  if isRam then Memory.get s.mem.ram addr else Memory.get s.mem.flash addr

/-- Write a byte of a store. -/
def storeSet (isRam : Bool) (addr : Nat) (v : Byte) (s : State) : State :=
  if isRam then { s with mem := { s.mem with ram := Memory.set s.mem.ram addr v } }
  else { s with mem := { s.mem with flash := Memory.set s.mem.flash addr v } }

/-- Write `v` to the `n` Flash addresses from `a` on. -/
def flashFill (a n : Nat) (v : Byte) (s : State) : State :=
  { s with mem := { s.mem with flash := Memory.fill s.mem.flash a n v } }

/-- The size of a store in bytes (10_state R30). -/
def storeSize (c : Config) (isRam : Bool) : Nat :=
  (if isRam then c.ramPages else c.flashPages) * pageSize

end Sys2Proof.Machine
end

