-- ==== Sys2Proof/Machine/Result.lean ====
section
/-! DEFINITION. Sequencing the primitives of a step, and the T-state counter (60_exceptions R571, R572). -/

namespace Sys2Proof.Machine

/-- Do the next primitive on the state the first one left; a stop ends the sequence. -/
def Res.andThen {α β : Type} (x : Res α) (k : α → State → Res β) : Res β :=
  match x with
  | .ok v s => k v s
  | .fault f => .fault f
  | .refused r => .refused r

/-- `AddT(n)` (60_exceptions R571). -/
def addT (n : Nat) (s : State) : State :=
  { s with timer := { tstates := s.timer.tstates + n, elapsed := s.timer.elapsed + n / s.cfg.freq } }

/-- `AddTGated(n)` (60_exceptions R572). -/
def addTGated (n : Nat) (s : State) : State :=
  if s.cfg.timingGate then addT n s else s

/-- The end of a table entry that returns the cost `t` (30_encoding R150 line 4). -/
def done (t : Nat) (s : State) : Outcome := .next (addT t s)

/-- The end of a table entry whose cost may depend on what it did. -/
def Res.finishWith {α : Type} (x : Res α) (t : α → Nat) : Outcome :=
  match x with
  | .ok v s => done (t v) s
  | .fault f => .fault f
  | .refused r => .refused r

/-- The end of a table entry that made accesses and returns the cost `t`. -/
def Res.finish {α : Type} (x : Res α) (t : Nat) : Outcome := x.finishWith fun _ => t

/-- A table entry's outcome as a primitive of the step. -/
def Res.ofOutcome (x : Outcome) : Res Unit :=
  match x with
  | .next s => .ok () s
  | .fault f => .fault f
  | .refused r => .refused r

/-- The outcome of a whole step. -/
def Res.toOutcome {α : Type} (x : Res α) : Outcome :=
  match x with
  | .ok _ s => .next s
  | .fault f => .fault f
  | .refused r => .refused r

end Sys2Proof.Machine
end

