-- ==== Sys2Proof/Machine/Translate.lean ====
section
/-! DEFINITION. Translation of a CPU address to a physical byte, and the operations that change the mapping
(20_memory R61 to R74). -/

namespace Sys2Proof.Machine

/-- Whether boot slot 2 has bit 0 of its page set: `BOOT_SLOT2_BIT0(FLASH_VERSION)` (00_scope R7, 20_memory R72). -/
def bootSlot2Bit0 (c : Config) : Bool :=
  match c.bootSlot2Bit0 with
  | some bit => bit
  | none => c.flashVersion != 1

/-- A slot moved to another page of the same store, with its base offset. -/
def BankSlot.atPage (b : BankSlot) (page : Byte) : BankSlot :=
  { b with page := page, baseOffset := page.toNat * pageSize }

/-- `BootDerive(n)` (20_memory R72). -/
def bootDerive (c : Config) (n : BankTable) : BankTable :=
  { slot0 := n.slot0
    slot1 := n.slot1.atPage (n.slot1.page &&& 0xFE)
    slot2 := n.slot1.atPage (if bootSlot2Bit0 c then n.slot1.page ||| 0x01 else n.slot1.page &&& 0xFE)
    slot3 := n.slot2
    slot4 := n.slot3 }

/-- The active table (20_memory R62). -/
def activeTable (s : State) : BankTable :=
  match s.mem.view with
  | .normal => s.mem.normal
  | .bootMapped => bootDerive s.cfg s.mem.normal

/-- `table[n]` for a bank number `n` in 0..3. -/
def BankTable.ofBank (t : BankTable) (n : BitVec 2) : BankSlot :=
  match n.toNat with
  | 0 => t.slot0
  | 1 => t.slot1
  | 2 => t.slot2
  | _ => t.slot3

/-- `table[n] <- b` for a slot number `n` in 0..4. -/
def BankTable.setSlot (t : BankTable) (n : Fin 5) (b : BankSlot) : BankTable :=
  match n.val with
  | 0 => { t with slot0 := b }
  | 1 => { t with slot1 := b }
  | 2 => { t with slot2 := b }
  | 3 => { t with slot3 := b }
  | _ => { t with slot4 := b }

/-- `table[n]` for a slot number `n` in 0..4. -/
def BankTable.slotAt (t : BankTable) (n : Fin 5) : BankSlot :=
  match n.val with
  | 0 => t.slot0
  | 1 => t.slot1
  | 2 => t.slot2
  | 3 => t.slot3
  | _ => t.slot4

/-- `active[bank(a)]` (20_memory R62). -/
def slotOf (s : State) (a : Word) : BankSlot := (activeTable s).ofBank (bankOf a)

/-- A remap window applies in this view (20_memory R64, R65). -/
def windowsOn (s : State) : Bool := s.mem.view == .normal || s.cfg.remapInBootView

/-- `win27(a)` (20_memory R64). The comparison is wide. -/
def win27 (s : State) (a : Word) : Bool :=
  decide (0 < s.mem.remap27.toNat) && windowsOn s && bankOf a == 3 &&
    decide (0x10000 ≤ a.toNat + s.cfg.remapUnit * min s.mem.remap27.toNat s.cfg.remap27MaxUnits)

/-- `win28(a)` (20_memory R65). The comparison is wide. -/
def win28 (s : State) (a : Word) : Bool :=
  decide (0 < s.mem.remap28.toNat) && windowsOn s && bankOf a == 2 &&
    decide (s.cfg.remap28Base ≤ offsetOf a) &&
    decide (offsetOf a < s.cfg.remap28Base + s.cfg.remapUnit * s.mem.remap28.toNat)

/-- A remap window covers the address. -/
def inWindow (s : State) (a : Word) : Bool := win27 s a || win28 s a

/-- The RAM version-2 shadow applies to the address (20_memory R66). -/
def shadowed (s : State) (a : Word) : Bool :=
  s.cfg.ramVersion == 2 && (slotOf s a).isRam && decide (2 < (slotOf s a).page.toNat)

/-- `Resolve(a)`: the store (RAM or not) and the physical address (20_memory R63 to R67). -/
def resolve (s : State) (a : Word) : Bool × Nat :=
  if win27 s a then (true, 0 * pageSize + offsetOf a)
  else if win28 s a then (true, 1 * pageSize + offsetOf a)
  else if shadowed s a then (true, 2 * pageSize + offsetOf a)
  else ((slotOf s a).isRam, (slotOf s a).baseOffset + offsetOf a)

/-- The physical address lies inside its store (20_memory R69). -/
def inStore (c : Config) (isRam : Bool) (addr : Nat) : Bool := decide (addr < storeSize c isRam)

/-- Go on if the physical address exists; an access to one that does not stops the machine (20_memory R69, log 13). -/
def checkStore (isRam : Bool) (addr : Nat) (s : State) : Res Unit :=
  if inStore s.cfg isRam addr then .ok () s else .fault (.outsideStore isRam addr)

/-- `canon` of a physical byte (20_memory R68). -/
def canonOf (isRam : Bool) (addr : Nat) : Canon :=
  { page := addr / pageSize, offset := addr % pageSize, isRam := isRam }

/-- `changePage(bank, page, isRam)` (20_memory R70). -/
def changePage (bank : Fin 5) (page : Byte) (isRam : Bool) (s : State) : Res Unit :=
  if page.toNat < (if isRam then s.cfg.ramPages else s.cfg.flashPages) then
    .ok () { s with mem := { s.mem with normal := s.mem.normal.setSlot bank (BankSlot.fresh isRam page) } }
  else .refused (.noSuchPage isRam page)

/-- `setView(v)` (20_memory R71). -/
def setView (v : View) (s : State) : State := { s with mem := { s.mem with view := v } }

/-- A device's write of the `read_only` and `no_exec` bits of a slot of `normal` (20_memory R74). -/
def setSlotBits (bank : Fin 5) (readOnly noExec : Bool) (s : State) : State :=
  let slot := { s.mem.normal.slotAt bank with readOnly := readOnly, noExec := noExec }
  { s with mem := { s.mem with normal := s.mem.normal.setSlot bank slot } }

end Sys2Proof.Machine
end

