-- ==== Sys2Proof/Machine/Agents.lean ====
section
/-! DEFINITION. The CPU reset (70_reset R601), and the agents a step calls synchronously: hooks (60_exceptions R586) and
devices (60_exceptions R550, R551). An agent whose behaviour is outside the spec acts by a free list of the operations
the core offers it; the list is a constant without a body, applied to the whole state (logs 6, 7). -/

namespace Sys2Proof

/-- A 16-bit register by name, for what a device or hook writes. -/
inductive RegName where
  | af | bc | de | hl | afAlt | bcAlt | deAlt | hlAlt | ix | iy | sp | pc
  deriving DecidableEq, Repr

/-- One thing a device or hook may do: a write of one piece of state of 10_state R50 (R49, 60_exceptions R521, R551), by
the operation the spec names for it where it names one (20_memory R70 to R74, 60_exceptions R571), or `Reset()`. A list
of them leads from any state that keeps the invariants of 10_state R51 to any other whose pages exist, with the same
parameters, `tstates` no smaller and nothing taken back from the output stream (log 6). -/
inductive Action where
  | setReg (r : RegName) (v : Word)
  | setI (v : Byte)
  | setR (v : Byte)
  | setIff (v : Bool)
  | setIm (m : Machine.IntMode)
  | setBus (v : Byte)
  | setHalt (v : Bool)
  | setDirection (read write : Bool)
  | setInput (v : Bool)
  | setOutput (v : Bool)
  | setInterrupt (v : Bool)
  | setEiBlock (v : Bool)
  | setPfx (p : Pfx)
  | storeByte (isRam : Bool) (addr : Nat) (v : Byte)
  | changePage (bank : Fin 5) (page : Byte) (isRam : Bool)
  | setView (v : Machine.View)
  | setRemap27 (n : Byte)
  | setRemap28 (n : Byte)
  | setFlashLocked (v : Bool)
  | setFlashState (x : Machine.FlashState)
  | setFlashError (v : Bool)
  | setBootUnmapDone (v : Bool)
  | setSlotBits (bank : Fin 5) (readOnly noExec : Bool)
  | setIoCache (v : Byte)
  | addT (n : Nat)
  | setElapsed (seconds : Rat)
  | setMarks (marks : List Machine.BreakMark)
  | setSkipCount (entry n : Nat)
  | setDeviceOwn (port : Byte) (own : Nat)
  | setHistory (ring : List Machine.HistoryRecord) (index : Nat)
  | setProfiler (on : Bool) (histogram : List Machine.ProfileBucket)
  | reset
  deriving DecidableEq, Repr

/-- What the `k`-th uninterpreted device does when it runs, from its own state and the core's. -/
opaque Config.deviceActions : Nat → Nat → Machine.State → List Action

/-- The `k`-th uninterpreted device's own state after it ran. -/
opaque Config.deviceOwn : Nat → Nat → Machine.State → Nat

/-- What the `k`-th present hook does when it is called. -/
opaque Config.hookActions : Nat → Machine.HookCall → Machine.State → List Action

/-- The `k`-th uninterpreted `EXEC_RULE(state, pc)` (30_encoding R153). -/
opaque Config.execRuleOf : Nat → Machine.State → Word → Bool

/-- The `k`-th uninterpreted `PORT_PROTECT_RULE(state)` (60_exceptions R554). -/
opaque Config.portProtectRuleOf : Nat → Machine.State → Bool

end Sys2Proof

namespace Sys2Proof.Machine

/-- The slot a binding makes. That `read_only` and `no_exec` are the parameter's, as the page is, is the model's choice
(70_reset R604; log 3). -/
def BankSlot.ofBinding (b : Binding) : BankSlot :=
  { BankSlot.fresh b.isRam b.page with readOnly := b.readOnly, noExec := b.noExec }

/-- The normal bank table of a pre-flash model after `Reset()`: the four bindings of the parameter, and slot 4 a copy of
slot 3 (70_reset R601, R604; log 3). -/
def BankTable.preFlash (m : ResetMap) : BankTable :=
  { slot0 := BankSlot.ofBinding m.bank0, slot1 := BankSlot.ofBinding m.bank1, slot2 := BankSlot.ofBinding m.bank2,
    slot3 := BankSlot.ofBinding m.bank3, slot4 := BankSlot.ofBinding m.bank3 }

/-- The memory context after `Reset()`: the stores and the marks stay (70_reset R601). -/
def MemCtx.resetTo (normal : BankTable) (m : MemCtx) : MemCtx :=
  { m with normal := normal, view := .normal, flashState := .read, flashLocked := true, flashError := false,
           remap27 := 0, remap28 := 0, bootUnmapDone := false }

/-- The CPU state after `Reset()` with a given normal bank table (70_reset R601). -/
def resetTo (normal : BankTable) (s : State) : State :=
  { s with regs := Regs.reset, ctl := Control.reset, mem := MemCtx.resetTo normal s.mem }

/-- `Reset()` (70_reset R601; refused for an unrecognized model, R605). -/
def resetCpu (s : State) : Res Unit :=
  match s.cfg.modelClass with
  | .flashEra => .ok () (resetTo (BankTable.flashEra s.cfg.flashPages) s)
  | .preFlash => .ok () (resetTo (BankTable.preFlash s.cfg.resetMapPreFlash) s)
  | .unrecognized => .refused .unrecognizedModel

/-- Write a 16-bit register by name. -/
def Regs.write (r : RegName) (v : Word) (g : Regs) : Regs :=
  match r with
  | .af => { g with a := hi v, f := lo v }
  | .bc => { g with b := hi v, c := lo v }
  | .de => { g with d := hi v, e := lo v }
  | .hl => { g with h := hi v, l := lo v }
  | .afAlt => { g with afAlt := v }
  | .bcAlt => { g with bcAlt := v }
  | .deAlt => { g with deAlt := v }
  | .hlAlt => { g with hlAlt := v }
  | .ix => { g with ix := v }
  | .iy => { g with iy := v }
  | .sp => { g with sp := v }
  | .pc => { g with pc := v }

/-- Write the own state of the device at a port. -/
def setDeviceOwn (p : Byte) (own : Nat) (s : State) : State :=
  let devices := s.pio.devices.map fun d => if d.port == p then { d with own := own } else d
  { s with pio := { s.pio with devices := devices } }

/-- Write the `skip_count` of entry `i` of the polling chain (10_state R44). -/
def setSkipCount (i n : Nat) (s : State) : State :=
  { s with pio := { s.pio with intEntries := s.pio.intEntries.modify i fun e => { e with skipCount := n } } }

/-- The break marks become `marks` (10_state R31). -/
def setMarks (marks : List BreakMark) (s : State) : State := { s with mem := { s.mem with marks := marks } }

/-- The number of records of the history ring (10_state R47). -/
def historySize : Nat := 512

/-- The core's side of one action. -/
def applyAction (x : Action) (s : State) : Res Unit :=
  match x with
  | .setReg r v => .ok () { s with regs := Regs.write r v s.regs }
  | .setI v => .ok () { s with regs := { s.regs with i := v } }
  | .setR v => .ok () { s with regs := { s.regs with r := v } }
  | .setIff v => .ok () { s with regs := { s.regs with iff1 := v, iff2 := v } }
  | .setIm m => .ok () { s with regs := { s.regs with im := m } }
  | .setBus v => .ok () { s with ctl := { s.ctl with bus := v } }
  | .setHalt v => .ok () { s with ctl := { s.ctl with halt := v } }
  | .setDirection rd wr => .ok () { s with ctl := { s.ctl with read := rd, write := wr } }
  | .setInput v => .ok () { s with ctl := { s.ctl with input := v } }
  | .setOutput v => .ok () { s with ctl := { s.ctl with output := v } }
  | .setInterrupt v => .ok () { s with ctl := { s.ctl with interrupt := v } }
  | .setEiBlock v => .ok () { s with ctl := { s.ctl with eiBlock := v } }
  | .setPfx p => .ok () { s with ctl := { s.ctl with pfx := p } }
  | .storeByte isRam addr v => (checkStore isRam addr s).andThen fun _ s => .ok () (storeSet isRam addr v s)
  | .changePage bank page isRam => Sys2Proof.Machine.changePage bank page isRam s
  | .setView v => .ok () (Sys2Proof.Machine.setView v s)
  | .setRemap27 n => .ok () { s with mem := { s.mem with remap27 := n } }
  | .setRemap28 n => .ok () { s with mem := { s.mem with remap28 := n } }
  | .setFlashLocked v => .ok () { s with mem := { s.mem with flashLocked := v } }
  | .setFlashState x => .ok () { s with mem := { s.mem with flashState := x } }
  | .setFlashError v => .ok () { s with mem := { s.mem with flashError := v } }
  | .setBootUnmapDone v => .ok () { s with mem := { s.mem with bootUnmapDone := v } }
  | .setSlotBits bank ro nx => .ok () (Sys2Proof.Machine.setSlotBits bank ro nx s)
  | .setIoCache v => .ok () { s with pio := { s.pio with ioCache := v } }
  | .addT n => .ok () (Sys2Proof.Machine.addT n s)
  | .setElapsed v => .ok () { s with timer := { s.timer with elapsed := max 0 v } }
  | .setMarks ms => .ok () (Sys2Proof.Machine.setMarks ms s)
  | .setSkipCount i n => .ok () (Sys2Proof.Machine.setSkipCount i n s)
  | .setDeviceOwn p own => .ok () (Sys2Proof.Machine.setDeviceOwn p own s)
  | .setHistory ring i =>
    .ok () { s with dbg := { s.dbg with history := ring.take historySize, historyIndex := i % historySize } }
  | .setProfiler on h => .ok () { s with dbg := { s.dbg with profiling := on, histogram := h } }
  | .reset => resetCpu s

/-- The actions of an agent, in order. -/
def applyActions : List Action → State → Res Unit
  | [], s => .ok () s
  | x :: xs, s => (applyAction x s).andThen fun _ s => applyActions xs s

/-- Append a line to the output stream. -/
def logLine (x : LogLine) (s : State) : State := { s with log := x :: s.log }

/-- No port transfer is under way: `input <- 0; output <- 0` (10_state R24, R51 (d); log 29). -/
def endTransfer (s : State) : State := { s with ctl := { s.ctl with input := false, output := false } }

/-- What handler `k` does when it is called. -/
def runHandler (k : Nat) (call : HookCall) (s : State) : Res Unit := applyActions (Config.hookActions k call s) s

/-- Raise an event and call its hook, if present (60_exceptions R520, R586). No port transfer is under way, and the hook
leaves none under way (log 29). -/
def callHook (hook : Option Nat) (call : HookCall) (s : State) : Res Unit :=
  match hook with
  | none => .ok () (logLine (.event call) s)
  | some k => (runHandler k call (logLine (.event call) s)).andThen fun _ s => .ok () (endTransfer s)

/-- Raise a PIO breakpoint and call the callback, if present, inside the port transfer (60_exceptions R582). That its
argument is the port index is the model's choice (log 30). -/
def callPioBreakpoint (p : Byte) (s : State) : Res Unit :=
  match s.cfg.hooks.pioBreakpoint with
  | none => .ok () (logLine (.event (.pioBreakpoint p)) s)
  | some k => runHandler k (.pioBreakpoint p) (logLine (.event (.pioBreakpoint p)) s)

/-- `raise ExecViolation(pc)`: the hook, or else the whole CPU reset (60_exceptions R521). -/
def raiseExecViolation (pc : Word) (s : State) : Res Unit :=
  match s.cfg.hooks.execViolation with
  | none => resetCpu (logLine (.event (.execViolation pc)) s)
  | some k => callHook (some k) (.execViolation pc) s

/-- `raise FlashViolation(a, v)`: the hook, or else nothing (60_exceptions R522). -/
def raiseFlashViolation (a : Word) (v : Byte) (s : State) : Res Unit :=
  callHook s.cfg.hooks.invalidFlash (.invalidFlash a v) s

/-- A break mark of this canonical address satisfies `p`. -/
def markedFor (p : BreakMark → Bool) (c : Canon) (s : State) : Bool :=
  s.mem.marks.any fun m => m.byte == c && p m

/-- The read-break check of a byte just read (60_exceptions R581). -/
def readBreak (isRam : Bool) (addr : Nat) (s : State) : Res Unit :=
  if markedFor (·.onRead) (canonOf isRam addr) s then
    callHook s.cfg.hooks.memReadBreak (.memReadBreak (canonOf isRam addr)) s
  else .ok () s

/-- The write-break check of a byte just written (60_exceptions R581). -/
def writeBreak (isRam : Bool) (addr : Nat) (s : State) : Res Unit :=
  if markedFor (·.onWrite) (canonOf isRam addr) s then
    callHook s.cfg.hooks.memWriteBreak (.memWriteBreak (canonOf isRam addr)) s
  else .ok () s

/-- The device in a slot of the table, if the slot is not empty (10_state R43). -/
def deviceAt (s : State) (p : Byte) : Option Device := s.pio.devices.find? fun d => d.port == p

/-- `devices[p].run(core)` (60_exceptions R551; the test devices as 95_test_vectors gives them). -/
def Device.run (d : Device) (s : State) : Res Unit :=
  match d.kind with
  | .latch =>
    if s.ctl.output then .ok () (setDeviceOwn d.port s.ctl.bus.toNat { s with ctl := { s.ctl with output := false } })
    else if s.ctl.input then
      .ok () { s with ctl := { s.ctl with bus := BitVec.ofNat 8 d.own, input := false } }
    else .ok () s
  | .irq vec =>
    if s.ctl.input || s.ctl.output then .ok () s
    else .ok () { s with ctl := { s.ctl with interrupt := true, bus := vec } }
  | .lock =>
    if s.ctl.output then
      .ok () { s with ctl := { s.ctl with output := false },
                      mem := { s.mem with flashLocked := !s.ctl.bus.getLsbD 0 } }
    else .ok () s
  | .uninterpreted k =>
    (applyActions (Config.deviceActions k d.own s) s).andThen fun _ t =>
      .ok () (setDeviceOwn d.port (Config.deviceOwn k d.own s) t)

/-- `RunDevice(p)` (60_exceptions R551). -/
def runDevice (p : Byte) (s : State) : Res Unit :=
  match deviceAt s p with
  | none => .ok () s
  | some d => if d.active then Device.run d s else .ok () s

/-- `RunDevice(p)` from the polling chain: no port transfer is under way, and the device leaves none under way (10_state
R24; log 29). -/
def pollDevice (p : Byte) (s : State) : Res Unit := (runDevice p s).andThen fun _ s => .ok () (endTransfer s)

/-- `devices[p].clear()` puts the device in its initial state; only the host calls it (60_exceptions R550). -/
def Device.clear (d : Device) : Device := { d with own := d.initial }

end Sys2Proof.Machine
end

