-- ==== Sys2Proof/Machine/Flash.lean ====
section
/-! DEFINITION. The flash command sequencer (20_memory R100 to R127). -/

namespace Sys2Proof.Machine

/-- `FlashWriteAllowed(page)` (20_memory R101). -/
def flashWriteAllowed (s : State) (page : Byte) : Bool :=
  !s.mem.flashLocked && s.cfg.modelClass == .flashEra &&
    ((page != 0x3F && page != 0x2F) || s.cfg.capA) &&
    ((page != 0x7F && page != 0x6F) || s.cfg.capB || !s.cfg.capC)

/-- `isAAA(a)` (20_memory R102). -/
def isAAA (a : Word) : Bool := low12 a == 0xAAA

/-- `is555(a)` (20_memory R102). -/
def is555 (a : Word) : Bool := low12 a == 0x555

/-- `flash_state <- x`. -/
def setFlashState (x : FlashState) (s : State) : State := { s with mem := { s.mem with flashState := x } }

/-- A transition that only moves the sequencer. -/
def flashGoto (x : FlashState) (s : State) : Res Unit := .ok () (setFlashState x s)

/-- `Recover(a, v)` (20_memory R104). -/
def recover (a : Word) (v : Byte) (s : State) : Res Unit :=
  (raiseFlashViolation a v s).andThen fun _ s => flashGoto .read s

/-- The physical Flash address of a CPU address, through its slot only (20_memory R112). -/
def flashAddr (s : State) (a : Word) : Nat := (slotOf s a).baseOffset + offsetOf a

/-- `flash_error <- 1`. -/
def setFlashError (s : State) : State := { s with mem := { s.mem with flashError := true } }

/-- `ByteProgram(a, v)` (20_memory R112). -/
def byteProgram (a : Word) (v : Byte) (s : State) : Res Unit :=
  (checkStore false (flashAddr s a) s).andThen fun _ s =>
    let stored := storeGet s false (flashAddr s a) &&& v
    let t := storeSet false (flashAddr s a) stored s
    .ok () (if stored != v then setFlashError t else t)

/-- The bytes from an address on, erased one by one with their write-break checks (20_memory R114). -/
def chipEraseFrom : Nat → Nat → State → Res Unit
  | 0, _, s => .ok () s
  | n + 1, p, s => (writeBreak false p (storeSet false p 0xFF s)).andThen fun _ s => chipEraseFrom n (p + 1) s

/-- `ChipErase()` (20_memory R114). Without a write-break mark on a Flash byte no check finds anything, and the erase is
one fill (log 26). -/
def chipErase (s : State) : Res Unit :=
  if s.mem.marks.any fun m => m.onWrite && !m.byte.isRam then chipEraseFrom (storeSize s.cfg false) 0 s
  else .ok () (flashFill 0 (storeSize s.cfg false) 0xFF s)

/-- The default `SECTOR_RANGE(page, o)`, start and end (exclusive), for a chip of at least four pages (20_memory R127). -/
def defaultSectorRange (flashPages : Nat) (page : Byte) (o : Nat) : Nat × Nat :=
  let t := flashPages * 2
  let u := page.toNat * 2 + o / 0x2000 % 2
  if u < t - 8 then ((u - u % 8) * 0x2000, (u - u % 8) * 0x2000 + 0x10000)
  else if u < t - 4 then ((t - 8) * 0x2000, (t - 8) * 0x2000 + 0x8000)
  else if u < t - 3 then ((t - 4) * 0x2000, (t - 4) * 0x2000 + 0x2000)
  else if u < t - 2 then ((t - 3) * 0x2000, (t - 3) * 0x2000 + 0x2000)
  else ((t - 2) * 0x2000, (t - 2) * 0x2000 + 0x4000)

/-- `SECTOR_RANGE(page, o)`, where it is a range of the Flash store (20_memory R127, log 5). -/
def sectorRange (c : Config) (page : Byte) (o : Nat) : Option (Nat × Nat) :=
  let range := match c.sectorRange with
    | .default => defaultSectorRange c.flashPages page o
    | .uninterpreted k => Config.sectorRangeOf k page o
  if range.2 ≤ storeSize c false && (c.sectorRange != .default || 4 ≤ c.flashPages) then some range else none

/-- `SectorErase(a)` (20_memory R115). -/
def sectorErase (a : Word) (s : State) : Res Unit :=
  match sectorRange s.cfg (slotOf s a).page (offsetOf a) with
  | some (start, stop) => .ok () (flashFill start (stop - start) 0xFF s)
  | none => .refused (.sectorRangeOutside (slotOf s a).page)

/-- `FlashWrite(a, v)`: the transition of the current state (20_memory R105 to R120). -/
def flashWrite (a : Word) (v : Byte) (s : State) : Res Unit :=
  match s.mem.flashState with
  | .read =>
    if v == 0xF0 then flashGoto .read s
    else if v == 0xAA && isAAA a then flashGoto .aa s
    else recover a v s
  | .aa =>
    if v == 0x55 && is555 a then flashGoto .s55 s
    else if v == 0xF0 then flashGoto .read s
    else recover a v s
  | .s55 =>
    if v == 0xF0 then flashGoto .read s
    else if isAAA a && v == 0xA0 then flashGoto .program s
    else if isAAA a && v == 0x80 then flashGoto .erase s
    else if isAAA a && v == 0x90 then flashGoto .autoselect s
    else if isAAA a && v == 0x20 && s.cfg.flashVersion != 1 then flashGoto .fastmode s
    else recover a v s
  | .program => (byteProgram a v s).andThen fun _ s => flashGoto .read s
  | .erase =>
    if v == 0xAA && isAAA a then flashGoto .eraseAa s
    else if v == 0xF0 then flashGoto .read s
    else recover a v s
  | .eraseAa =>
    if v == 0x55 && is555 a then flashGoto .erase55 s
    else if v == 0xF0 then flashGoto .read s
    else recover a v s
  | .erase55 =>
    if v == 0x10 then (chipErase s).andThen fun _ s => flashGoto .read s
    else if v == 0x30 then (sectorErase a s).andThen fun _ s => flashGoto .read s
    else if v == 0xF0 then flashGoto .read s
    else recover a v s
  | .fastmode =>
    if v == 0xA0 then flashGoto .fastmodeProg s
    else if v == 0x90 then flashGoto .fastmodeExit s
    else recover a v s
  | .fastmodeProg => (byteProgram a v s).andThen fun _ s => flashGoto .fastmode s
  | .fastmodeExit =>
    if v == 0x00 || v == 0xF0 then flashGoto .read s
    else recover a v s
  | .autoselect =>
    if v == 0xF0 then flashGoto .read s
    else recover a v s
  | .error =>
    if v == 0xF0 then flashGoto .read s
    else recover a v s

/-- The stored Flash byte at a CPU address, through the slot as it is now (20_memory R123, R124; log 23). -/
def flashStored (a : Word) (s : State) : Res Byte :=
  (checkStore false (flashAddr s a) s).andThen fun _ s => .ok (storeGet s false (flashAddr s a)) s

/-- `FlashRead(a)`: the flash-read decoder (20_memory R122 to R124). -/
def flashRead (a : Word) (s : State) : Res Byte :=
  match s.mem.flashState with
  | .autoselect =>
    match offsetOf a with
    | 0 => .ok 0x01 s
    | 2 => .ok s.cfg.autoselectId2 s
    | 4 => .ok s.cfg.autoselectId4 s
    | _ => (recover a 0 s).andThen fun _ s => flashStored a s
  | _ => flashStored a (setFlashState .read s)

end Sys2Proof.Machine
end

