-- ==== Sys2Proof/Machine/Bus.lean ====
section
/-! DEFINITION. The byte accesses of the CPU and the two 16-bit accesses (20_memory R80 to R85). -/

namespace Sys2Proof.Machine

/-- The kind of an access, for its delay (20_memory R81). -/
inductive AccessKind where
  | fetch | read | write
  deriving DecidableEq, Repr

/-- `DELAY(kind, store)` (20_memory R81). -/
def delay (c : Config) (kind : AccessKind) (isRam : Bool) : Nat :=
  match kind, isRam with
  | .fetch, true => c.delays.fetchRam
  | .fetch, false => c.delays.fetchFlash
  | .read, true => c.delays.readRam
  | .read, false => c.delays.readFlash
  | .write, true => c.delays.writeRam
  | .write, false => c.delays.writeFlash

/-- `read <- rd; write <- wr` (10_state R23). -/
def setDirection (rd wr : Bool) (s : State) : State := { s with ctl := { s.ctl with read := rd, write := wr } }

/-- `bus <- v` (10_state R21). -/
def setBus (v : Byte) (s : State) : State := { s with ctl := { s.ctl with bus := v } }

/-- A read of this address goes through the flash-read decoder (20_memory R80). -/
def decodedRead (s : State) (a : Word) : Bool :=
  !inWindow s a && !(slotOf s a).isRam && s.mem.flashState != .read

/-- The byte a read of `a` takes, before its timing, its break check and the bus (20_memory R80). -/
def readValue (a : Word) (s : State) : Res Byte :=
  if decodedRead s a then flashRead a s else .ok (storeGet s (resolve s a).1 (resolve s a).2) s

/-- One byte read by the CPU at an address, as an operand or data (`read`) or an opcode (`fetch`) (20_memory R80,
30_encoding R152 line 3). The break check is of the byte `a` resolved to before the access, even if a hook inside
`FlashRead` has remapped the bank (log 31). -/
def readByte (kind : AccessKind) (a : Word) (s : State) : Res Byte :=
  let s := setDirection true false s
  let at' := resolve s a
  (checkStore at'.1 at'.2 s).andThen fun _ s =>
    (readValue a s).andThen fun v s =>
      (readBreak at'.1 at'.2 (addTGated (delay s.cfg kind at'.1) s)).andThen fun _ s => .ok v (setBus v s)

/-- `MemRead(a, 1)` (20_memory R80). -/
def memRead (a : Word) (s : State) : Res Byte := readByte .read a s

/-- What a write of `v` to `a`, resolved to a store and physical address, does to the stores and the flash sequencer
(20_memory R82, R83). -/
def writeEffect (a : Word) (v : Byte) (at' : Bool × Nat) (s : State) : Res Unit :=
  if at'.1 then
    .ok () (if inWindow s a || !(slotOf s a).readOnly then storeSet at'.1 at'.2 v s else s)
  else if flashWriteAllowed s (slotOf s a).page then flashWrite a v s
  else raiseFlashViolation a v s

/-- `MemWrite(a, 1, v)` (20_memory R82). The break check is of the byte `a` resolved to before the access, even if a hook
inside `FlashWrite` or of the gate has remapped the bank (log 31). -/
def memWrite (a : Word) (v : Byte) (s : State) : Res Unit :=
  let s := setDirection false true s
  let at' := resolve s a
  (checkStore at'.1 at'.2 s).andThen fun _ s =>
    (writeEffect a v at' s).andThen fun _ s =>
      (writeBreak at'.1 at'.2 (addTGated (delay s.cfg .write at'.1) s)).andThen fun _ s => .ok () (setBus v s)

/-- `MemRead(a, 2)`: the byte at `a` first, which is the low one (20_memory R84, R85). -/
def memRead16 (a : Word) (s : State) : Res Word :=
  (memRead a s).andThen fun l s => (memRead (a + 1) s).andThen fun h s => .ok (join h l) s

/-- `MemWrite(a, 2, v)`: the low byte first, at `a` (20_memory R84). -/
def memWrite16 (a : Word) (v : Word) (s : State) : Res Unit :=
  (memWrite a (lo v) s).andThen fun _ s => memWrite (a + 1) (hi v) s

end Sys2Proof.Machine
end

