-- ==== Sys2Proof/Machine/Operands.lean ====
section
/-! DEFINITION. The operand forms (10_state R10 to R13, 30_encoding R158, R163 to R167): registers, pairs, index registers
and their halves, the indexed address, the conditions. -/

namespace Sys2Proof.Machine

/-- A read of `r[i]`. -/
def Regs.get8 (r : Reg8) (g : Regs) : Byte :=
  match r with
  | .b => g.b
  | .c => g.c
  | .d => g.d
  | .e => g.e
  | .h => g.h
  | .l => g.l
  | .a => g.a

/-- A write of `r[i]`. -/
def Regs.set8 (r : Reg8) (v : Byte) (g : Regs) : Regs :=
  match r with
  | .b => { g with b := v }
  | .c => { g with c := v }
  | .d => { g with d := v }
  | .e => { g with e := v }
  | .h => { g with h := v }
  | .l => { g with l := v }
  | .a => { g with a := v }

/-- `BC`. -/
def Regs.bc (g : Regs) : Word := join g.b g.c

/-- `DE`. -/
def Regs.de (g : Regs) : Word := join g.d g.e

/-- `HL`. -/
def Regs.hl (g : Regs) : Word := join g.h g.l

/-- `AF`. -/
def Regs.af (g : Regs) : Word := join g.a g.f

/-- `BC <- v`. -/
def Regs.setBc (v : Word) (g : Regs) : Regs := { g with b := hi v, c := lo v }

/-- `DE <- v`. -/
def Regs.setDe (v : Word) (g : Regs) : Regs := { g with d := hi v, e := lo v }

/-- `HL <- v`. -/
def Regs.setHl (v : Word) (g : Regs) : Regs := { g with h := hi v, l := lo v }

/-- `AF <- v`. -/
def Regs.setAf (v : Word) (g : Regs) : Regs := { g with a := hi v, f := lo v }

/-- A read of `dd[p]` or `ss[p]` (30_encoding R166). -/
def Regs.getPair (p : Pair) (g : Regs) : Word :=
  match p with
  | .bc => g.bc
  | .de => g.de
  | .hl => g.hl
  | .sp => g.sp

/-- A write of `dd[p]` or `ss[p]`. -/
def Regs.setPair (p : Pair) (v : Word) (g : Regs) : Regs :=
  match p with
  | .bc => g.setBc v
  | .de => g.setDe v
  | .hl => g.setHl v
  | .sp => { g with sp := v }

/-- A read of `qq[p]` (30_encoding R166). -/
def Regs.getQPair (q : QPair) (g : Regs) : Word :=
  match q with
  | .bc => g.bc
  | .de => g.de
  | .hl => g.hl
  | .af => g.af

/-- A write of `qq[p]`. -/
def Regs.setQPair (q : QPair) (v : Word) (g : Regs) : Regs :=
  match q with
  | .bc => g.setBc v
  | .de => g.setDe v
  | .hl => g.setHl v
  | .af => g.setAf v

/-- A read of `XY` (00_scope R8). -/
def Regs.getXY (x : Index) (g : Regs) : Word :=
  match x with
  | .ix => g.ix
  | .iy => g.iy

/-- A write of `XY`. -/
def Regs.setXY (x : Index) (v : Word) (g : Regs) : Regs :=
  match x with
  | .ix => { g with ix := v }
  | .iy => { g with iy := v }

/-- A read of `pp[p]` or `rr[p]` (30_encoding R166). -/
def Regs.getXPair (x : Index) (p : XPair) (g : Regs) : Word :=
  match p with
  | .bc => g.bc
  | .de => g.de
  | .xy => g.getXY x
  | .sp => g.sp

/-- A read of `XYH` or `XYL` (10_state R13). -/
def Regs.getHalf (x : Index) (k : Half) (g : Regs) : Byte :=
  match k with
  | .hi => hi (g.getXY x)
  | .lo => lo (g.getXY x)

/-- A write of `XYH` or `XYL`, which leaves the other half (10_state R10). -/
def Regs.setHalf (x : Index) (k : Half) (v : Byte) (g : Regs) : Regs :=
  match k with
  | .hi => g.setXY x (join v (lo (g.getXY x)))
  | .lo => g.setXY x (join (hi (g.getXY x)) v)

/-- A read of a register field under an index prefix: 4 and 5 are `XYH` and `XYL` (40_load8 R215). -/
def Regs.getUnderPrefix (x : Index) (p : Reg8) (g : Regs) : Byte :=
  match p with
  | .h => g.getHalf x .hi
  | .l => g.getHalf x .lo
  | p => g.get8 p

/-- A write of a register field under an index prefix (40_load8 R215). -/
def Regs.setUnderPrefix (x : Index) (p : Reg8) (v : Byte) (g : Regs) : Regs :=
  match p with
  | .h => g.setHalf x .hi v
  | .l => g.setHalf x .lo v
  | p => g.set8 p v

/-- Change the register file. -/
def onRegs (k : Regs → Regs) (s : State) : State := { s with regs := k s.regs }

/-- `PC <- v`. -/
def setPc (v : Word) (s : State) : State := { s with regs := { s.regs with pc := v } }

/-- `SP <- v`. -/
def setSp (v : Word) (s : State) : State := { s with regs := { s.regs with sp := v } }

/-- The address of an `(XY+d)` operand (30_encoding R158, 40_load8 R200). -/
def indexAddr (x : Index) (d : Byte) (s : State) : Word := s.regs.getXY x + sext16 d

/-- `cond(cc)` on a flag register (30_encoding R167). -/
def condHolds (cc : Cond) (f : Byte) : Bool :=
  match cc with
  | .nz => !f.getLsbD 6
  | .z => f.getLsbD 6
  | .nc => !f.getLsbD 0
  | .c => f.getLsbD 0
  | .po => !f.getLsbD 2
  | .pe => f.getLsbD 2
  | .p => !f.getLsbD 7
  | .m => f.getLsbD 7

end Sys2Proof.Machine
end

