-- ==== Sys2Proof/Machine/Flags.lean ====
section
/-! DEFINITION. The flag register and every computation that writes it (10_state R14, 43_arith8 R300 to R304,
44_cpu_control R340, 45_arith16, 46_rotate_shift R394, 47_bit). Results are computed exactly, in naturals or integers,
and narrowed at the end. -/

namespace Sys2Proof.Machine

/-- The eight flags of `F` (10_state R14). -/
structure Flags where
  s : Bool
  z : Bool
  y : Bool
  h : Bool
  x : Bool
  pv : Bool
  n : Bool
  c : Bool
  deriving DecidableEq, Repr

/-- The flags in a byte. -/
def Flags.ofByte (f : Byte) : Flags :=
  { s := f.getLsbD 7, z := f.getLsbD 6, y := f.getLsbD 5, h := f.getLsbD 4,
    x := f.getLsbD 3, pv := f.getLsbD 2, n := f.getLsbD 1, c := f.getLsbD 0 }

/-- The byte that holds the flags. -/
def Flags.byte (k : Flags) : Byte :=
  BitVec.ofBool k.s ++ BitVec.ofBool k.z ++ BitVec.ofBool k.y ++ BitVec.ofBool k.h ++
    BitVec.ofBool k.x ++ BitVec.ofBool k.pv ++ BitVec.ofBool k.n ++ BitVec.ofBool k.c

/-- The flags of the register file. -/
def Regs.flags (g : Regs) : Flags := Flags.ofByte g.f

/-- `F <- k`. -/
def Regs.setFlags (k : Flags) (g : Regs) : Regs := { g with f := k.byte }

/-- `Y` and `X` from bits 5 and 3 of a byte, the other flags kept. -/
def Flags.withXY (v : Byte) (k : Flags) : Flags := { k with y := v.getLsbD 5, x := v.getLsbD 3 }

/-- `szxy(v)`, the other flags kept (43_arith8 R300). -/
def Flags.szxy (v : Byte) (k : Flags) : Flags :=
  { k with s := v.getLsbD 7, z := v == 0, y := v.getLsbD 5, x := v.getLsbD 3 }

/-- `add8(a, b, cin)` (43_arith8 R301). -/
def add8 (a b : Byte) (cin : Bool) : Byte × Flags :=
  let w := a.toNat + b.toNat + cin.toNat
  let res : Byte := BitVec.ofNat 8 w
  (res,
    { s := res.getLsbD 7, z := res == 0, y := res.getLsbD 5, x := res.getLsbD 3,
      h := decide (0x0F < a.toNat % 16 + b.toNat % 16 + cin.toNat),
      pv := a.getLsbD 7 == b.getLsbD 7 && res.getLsbD 7 != a.getLsbD 7,
      n := false, c := decide (0xFF < w) })

/-- `sub8(a, b, cin)` (43_arith8 R302). -/
def sub8 (a b : Byte) (cin : Bool) : Byte × Flags :=
  let w : Int := (a.toNat : Int) - b.toNat - cin.toNat
  let res : Byte := BitVec.ofInt 8 w
  (res,
    { s := res.getLsbD 7, z := res == 0, y := res.getLsbD 5, x := res.getLsbD 3,
      h := decide ((a.toNat % 16 : Int) - b.toNat % 16 - cin.toNat < 0),
      pv := a.getLsbD 7 != b.getLsbD 7 && res.getLsbD 7 != a.getLsbD 7,
      n := true, c := decide (w < 0) })

/-- `logic(res, h)` (43_arith8 R303). -/
def logicFlags (res : Byte) (h : Bool) : Flags :=
  { s := res.getLsbD 7, z := res == 0, y := res.getLsbD 5, x := res.getLsbD 3, h := h, pv := parity res,
    n := false, c := false }

/-- The result an accumulator operation leaves in `A`, and `F` (43_arith8 R307 to R314). -/
def aluResult (op : AluOp) (a s : Byte) (cin : Bool) : Byte × Flags :=
  match op with
  | .add => add8 a s false
  | .adc => add8 a s cin
  | .sub => sub8 a s false
  | .sbc => sub8 a s cin
  | .and => (a &&& s, logicFlags (a &&& s) true)
  | .xor => (a ^^^ s, logicFlags (a ^^^ s) false)
  | .or => (a ||| s, logicFlags (a ||| s) false)
  | .cp => (a, (sub8 a s false).2.withXY s)

/-- `inc8(v)`; `C` is kept (43_arith8 R304). -/
def inc8 (v : Byte) (k : Flags) : Byte × Flags :=
  let res := v + 1
  (res, { Flags.szxy res k with h := lowNibble v == 0xF, pv := v == 0x7F, n := false })

/-- `dec8(v)`; `C` is kept (43_arith8 R304). -/
def dec8 (v : Byte) (k : Flags) : Byte × Flags :=
  let res := v - 1
  (res, { Flags.szxy res k with h := lowNibble v == 0x0, pv := v == 0x80, n := true })

/-- `DAA` (44_cpu_control R340). -/
def daaResult (a : Byte) (k : Flags) : Byte × Flags :=
  let low := a.toNat % 16
  let carry := k.c || decide (0x99 < a.toNat)
  let corr : Byte := (if k.h || decide (9 < low) then 0x06 else 0x00) ||| (if carry then 0x60 else 0x00)
  let res := if k.n then a - corr else a + corr
  let h := if k.n then k.h && decide (low < 6) else decide (9 < low)
  (res, { Flags.szxy res k with h := h, pv := parity res, c := carry })

/-- `CPL` (44_cpu_control R341). -/
def cplResult (a : Byte) (k : Flags) : Byte × Flags :=
  (~~~a, { Flags.withXY (~~~a) k with h := true, n := true })

/-- `CCF` (44_cpu_control R343). -/
def ccfFlags (a : Byte) (k : Flags) : Flags := { Flags.withXY a k with h := k.c, c := !k.c, n := false }

/-- `SCF` (44_cpu_control R344). -/
def scfFlags (a : Byte) (k : Flags) : Flags := { Flags.withXY a k with c := true, h := false, n := false }

/-- `LD A,I` and `LD A,R` (40_load8 R217, R218). -/
def loadSpecialFlags (v : Byte) (iff2 : Bool) (k : Flags) : Flags :=
  { Flags.szxy v k with h := false, pv := iff2, n := false }

/-- `ADD HL,ss` and `ADD XY,pp`; `S`, `Z`, `PV` are kept (45_arith16 R370). -/
def add16 (a b : Word) (k : Flags) : Word × Flags :=
  let w := a.toNat + b.toNat
  let res : Word := BitVec.ofNat 16 w
  (res,
    { k with h := decide (0x0FFF < a.toNat % 4096 + b.toNat % 4096), c := decide (0xFFFF < w), n := false,
             y := res.getLsbD 13, x := res.getLsbD 11 })

/-- `ADC HL,ss` (45_arith16 R371). -/
def adc16 (a b : Word) (cin : Bool) : Word × Flags :=
  let w := a.toNat + b.toNat + cin.toNat
  let res : Word := BitVec.ofNat 16 w
  (res,
    { s := res.getLsbD 15, z := res == 0, y := res.getLsbD 13, x := res.getLsbD 11,
      h := decide (0x0FFF < a.toNat % 4096 + b.toNat % 4096 + cin.toNat),
      pv := a.getLsbD 15 == b.getLsbD 15 && res.getLsbD 15 != a.getLsbD 15,
      n := false, c := decide (0xFFFF < w) })

/-- `SBC HL,ss` (45_arith16 R372). -/
def sbc16 (a b : Word) (cin : Bool) : Word × Flags :=
  let w : Int := (a.toNat : Int) - b.toNat - cin.toNat
  let res : Word := BitVec.ofInt 16 w
  (res,
    { s := res.getLsbD 15, z := res == 0, y := res.getLsbD 13, x := res.getLsbD 11,
      h := decide ((a.toNat % 4096 : Int) - b.toNat % 4096 - cin.toNat < 0),
      pv := a.getLsbD 15 != b.getLsbD 15 && res.getLsbD 15 != a.getLsbD 15,
      n := true, c := decide (w < 0) })

/-- Result and new carry of `rot[y]` (46_rotate_shift R394). -/
def rotResult (op : RotOp) (v : Byte) (cin : Bool) : Byte × Bool :=
  let up (b : BitVec 1) : Byte := v.extractLsb' 0 7 ++ b
  let down (b : BitVec 1) : Byte := b ++ v.extractLsb' 1 7
  match op with
  | .rlc => (up (v.extractLsb' 7 1), v.getLsbD 7)
  | .rrc => (down (v.extractLsb' 0 1), v.getLsbD 0)
  | .rl => (up (BitVec.ofBool cin), v.getLsbD 7)
  | .rr => (down (BitVec.ofBool cin), v.getLsbD 0)
  | .sla => (up 0, v.getLsbD 7)
  | .sra => (down (v.extractLsb' 7 1), v.getLsbD 0)
  | .sll => (up 1, v.getLsbD 7)
  | .srl => (down 0, v.getLsbD 0)

/-- `F` after a CB-table rotate or shift (46_rotate_shift R394). -/
def rotFlags (res : Byte) (carry : Bool) : Flags :=
  { s := res.getLsbD 7, z := res == 0, y := res.getLsbD 5, x := res.getLsbD 3, h := false, pv := parity res,
    n := false, c := carry }

/-- The flags after `RLCA`, `RRCA`, `RLA`, `RRA` (46_rotate_shift, before R390). -/
def rotAccFlags (res : Byte) (carry : Bool) (k : Flags) : Flags :=
  { Flags.withXY res k with h := false, n := false, c := carry }

/-- `szxy(v), H = 0, PV = parity(v), N = 0`, `C` kept: `RLD`, `RRD`, `IN r,(C)` (46_rotate_shift R404, 49_io R481). -/
def parityFlags (v : Byte) (k : Flags) : Flags := { Flags.szxy v k with h := false, pv := parity v, n := false }

/-- `BIT b` of `v` with `X` and `Y` given (47_bit, before R430). -/
def bitFlags (b : BitVec 3) (v : Byte) (y x : Bool) (k : Flags) : Flags :=
  let bit := v.getLsbD b.toNat
  { k with z := !bit, pv := !bit, s := b == 7 && bit, h := true, n := false, y := y, x := x }

/-- `LDI` and the other block transfers: `bc` after the decrement, `n = A + t` (42_exchange_block R275). -/
def blockLoadFlags (a t : Byte) (bc : Word) (k : Flags) : Flags :=
  { k with h := false, n := false, pv := bc != 0, x := (a + t).getLsbD 3, y := (a + t).getLsbD 1 }

/-- `CPI` and the other block searches: `bc` after the decrement (42_exchange_block R279). -/
def blockCompareFlags (a t : Byte) (bc : Word) (k : Flags) : Flags :=
  let cmp := sub8 a t false
  let n := cmp.1 - (if cmp.2.h then 1 else 0)
  { k with s := cmp.1.getLsbD 7, z := cmp.1 == 0, h := cmp.2.h, pv := bc != 0, n := true,
           x := n.getLsbD 3, y := n.getLsbD 1 }

/-- Block I/O: `Z` from `B` after the decrement, every other bit from a free byte (49_io R493, log 8). -/
def blockIoFlags (b free : Byte) : Flags := { Flags.ofByte free with z := b == 0 }

end Sys2Proof.Machine
end

