-- ==== Sys2Proof/Machine/Ops.lean ====
section
/-! DEFINITION. The operations the instructions share: read-modify-write, the stack (41_load16 R255, R256), port transfers
(60_exceptions R552 to R554), free values, control transfer; and the one way an exception is taken on this machine, the
delivery of a maskable interrupt (60_exceptions R540 to R544), with the return from one (48_jump_call_return R468). -/

namespace Sys2Proof.Machine

/-- `F <- k`. -/
def setFlags (k : Flags) (s : State) : State := onRegs (Regs.setFlags k) s

/-- `A <- v; F <- k`. -/
def setAccFlags (r : Byte × Flags) (s : State) : State := onRegs (fun g => Regs.setFlags r.2 { g with a := r.1 }) s

/-- The carry flag. -/
def carryIn (s : State) : Bool := s.regs.flags.c

/-- `(A, F) <- alu(A, v)` (43_arith8 R307 to R314). -/
def aluStep (op : AluOp) (v : Byte) (s : State) : State := setAccFlags (aluResult op s.regs.a v (carryIn s)) s

/-- The address of an `(HL)` operand, `HL` as it is at each access. -/
def atHl (s : State) : Word := s.regs.hl

/-- Read a byte, compute, write the result back (43_arith8 R316): `F` is written before the store. The address `loc` is
taken anew for each access, as the rules write it. -/
def modifyFlagsFirst (loc : State → Word) (k : Byte → Flags → Byte × Flags) (s : State) : Res Unit :=
  (memRead (loc s) s).andThen fun v s =>
    let r := k v s.regs.flags
    let s := setFlags r.2 s
    memWrite (loc s) r.1 s

/-- A CB-table rotate or shift of a byte of memory (46_rotate_shift R394, R395). Gives the byte written.
That the carry is that after the read, and that `F` is written after the store, is the model's choice (log 34). -/
def rotateMem (op : RotOp) (loc : State → Word) (s : State) : Res Byte :=
  (memRead (loc s) s).andThen fun v s =>
    let r := rotResult op v (carryIn s)
    (memWrite (loc s) r.1 s).andThen fun _ s => .ok r.1 (setFlags (rotFlags r.1 r.2) s)

/-- Bit `b` alone. -/
def bitMask (b : BitVec 3) : Byte := 1 <<< b.toNat

/-- `v | (1 << b)` (47_bit R433). -/
def setBit (b : BitVec 3) (v : Byte) : Byte := v ||| bitMask b

/-- `v & ~(1 << b)` (47_bit R436). -/
def resBit (b : BitVec 3) (v : Byte) : Byte := v &&& ~~~bitMask b

/-- `SET` or `RES` of a byte of memory (47_bit R434, R437). Gives the byte written. -/
def changeBitMem (k : Byte → Byte) (loc : State → Word) (s : State) : Res Byte :=
  (memRead (loc s) s).andThen fun v s => (memWrite (loc s) (k v) s).andThen fun _ s => .ok (k v) s

/-- Draw a free value: a byte no rule determines (`any`, 00_scope R8; log 8). -/
def drawFree (s : State) : Byte × State := (Config.freeByte s.free, { s with free := s.free + 1 })

/-- `Push16(v)`: the high byte first (41_load16 R255). -/
def push16 (v : Word) (s : State) : Res Unit :=
  let s := setSp (s.regs.sp - 1) s
  (memWrite s.regs.sp (hi v) s).andThen fun _ s =>
    let s := setSp (s.regs.sp - 1) s
    memWrite s.regs.sp (lo v) s

/-- `Pop16()` (41_load16 R256). -/
def pop16 (s : State) : Res Word :=
  (memRead s.regs.sp s).andThen fun l s =>
    let s := setSp (s.regs.sp + 1) s
    (memRead s.regs.sp s).andThen fun h s => .ok (join h l) (setSp (s.regs.sp + 1) s)

/-- `PC <- PC + sext_16(e)`: `PC` is the address of the byte after `e` (48_jump_call_return R452). -/
def relJump (e : Byte) (s : State) : State := setPc (s.regs.pc + sext16 e) s

/-- `PC <- PC - 2`: a repeating block instruction runs again (42_exchange_block R283). -/
def repeatInstr (s : State) : State := setPc (s.regs.pc - 2) s

/-- `Push16(PC); PC <- v` (48_jump_call_return R460, R470). -/
def callTo (v : Word) (s : State) : Res Unit := (push16 s.regs.pc s).andThen fun _ s => .ok () (setPc v s)

/-- `PC <- Pop16()` (48_jump_call_return R462). -/
def returnTo (s : State) : Res Unit := (pop16 s).andThen fun v s => .ok () (setPc v s)

/-- `IFF1 <- IFF2` (48_jump_call_return R468, R469). -/
def restoreIff (s : State) : State := onRegs (fun g => { g with iff1 := g.iff2 }) s

/-- `PC <- Pop16(); IFF1 <- IFF2`: the return from an interrupt. -/
def returnFromInterrupt (s : State) : Res Unit := (returnTo s).andThen fun _ s => .ok () (restoreIff s)

/-- `PORT_PROTECT_RULE(state)` (60_exceptions R554, log 4). -/
def portProtectRule (s : State) : Bool :=
  match s.cfg.portProtectRule with
  | .default => true
  | .uninterpreted k => Config.portProtectRuleOf k s

/-- `PortAllowed(d)` (60_exceptions R554). -/
def portAllowed (d : Device) (s : State) : Bool := !d.protectedPort || portProtectRule s

/-- `input <- v`. -/
def setInput (v : Bool) (s : State) : State := { s with ctl := { s.ctl with input := v } }

/-- `output <- v`. -/
def setOutput (v : Bool) (s : State) : State := { s with ctl := { s.ctl with output := v } }

/-- `io_cache <- v`. -/
def setIoCache (v : Byte) (s : State) : State := { s with pio := { s.pio with ioCache := v } }

/-- The device at a port takes part in the transfer, if it is there and allowed (60_exceptions R552, R582). -/
def dispatchPort (p : Byte) (s : State) : Res Unit :=
  match deviceAt s p with
  | none => .ok () s
  | some d =>
    if d.active && portAllowed d s then
      (if d.breakpoint then callPioBreakpoint p s else .ok () s).andThen fun _ s => runDevice p s
    else .ok () s

/-- The end of `PortOut`: nobody answered (60_exceptions R552, R524). -/
def finishOut (p : Byte) (s : State) : State :=
  if s.ctl.output then setOutput false (logLine (.noAnswerOut p) s) else s

/-- `PortOut(p, v)` (60_exceptions R552). It leaves `input` as it was: the flag is of no port transfer (10_state R24; log
29). -/
def portOut (p v : Byte) (s : State) : Res Unit :=
  (dispatchPort p (setOutput true (setIoCache v (setBus v s)))).andThen fun _ t =>
    .ok () (finishOut p (setInput s.ctl.input t))

/-- The end of `PortIn`: nobody answered (60_exceptions R553, R524). -/
def finishIn (p : Byte) (s : State) : State :=
  if s.ctl.input then setBus 0xFF (setInput false (logLine (.noAnswerIn p) s)) else s

/-- `PortIn(p)` (60_exceptions R553). It leaves `output` as it was: the flag is of no port transfer (10_state R24; log
29). -/
def portIn (p : Byte) (s : State) : Res Byte :=
  (dispatchPort p (setInput true s)).andThen fun _ t =>
    let t := finishIn p (setOutput s.ctl.output t)
    .ok t.ctl.bus (setIoCache t.ctl.bus t)

/-- Advance the refresh register by `n` (10_state R18). -/
def advanceR (n : Nat) (s : State) : State := onRegs (fun g => { g with r := refreshBy n g.r }) s

/-- `SpecialFlagFix()`: the instruction of this step was `LD A,I` or `LD A,R` (60_exceptions R544). -/
def specialFlagFix (ran : Option Instr) (s : State) : State :=
  if ran = some .ldAI || ran = some .ldARegR then setFlags { s.regs.flags with pv := false } s else s

/-- What every delivery does before its mode's part (60_exceptions R540). -/
def acknowledge (ran : Option Instr) (s : State) : State :=
  let s := { s with ctl := { s.ctl with halt := false } }
  let s := onRegs (fun g => { g with iff1 := false, iff2 := false }) s
  specialFlagFix ran (advanceR 1 s)

/-- `DeliverIM1()` (60_exceptions R542). -/
def deliverIm1 (s : State) : Res Unit :=
  (push16 s.regs.pc s).andThen fun _ s => .ok () (addT s.cfg.im1Tstates (setPc s.cfg.im1Vector s))

/-- `DeliverIM2()`: `bus` is sampled before the push (60_exceptions R543). -/
def deliverIm2 (s : State) : Res Unit :=
  let v := s.ctl.bus
  (push16 s.regs.pc s).andThen fun _ s =>
    (memRead16 (join s.regs.i v) s).andThen fun target s => .ok () (addT s.cfg.im2Tstates (setPc target s))

/-- `DeliverInterrupt()`, with the way mode 0 executes the bus byte (60_exceptions R540, R541). -/
def deliverInterrupt (executeByte : Byte → State → Res Unit) (ran : Option Instr) (s : State) : Res Unit :=
  let s := acknowledge ran s
  match s.regs.im with
  | .im0 => executeByte s.ctl.bus (addT s.cfg.im0Tstates s)
  | .im1 => deliverIm1 s
  | .im2 => deliverIm2 s

/-- Replace entry `i` of the polling chain. -/
def setEntry (i : Nat) (e : IntEntry) (s : State) : State :=
  { s with pio := { s.pio with intEntries := s.pio.intEntries.set i e } }

/-- The poll of entry `i` (60_exceptions R531). -/
def pollEntry (i : Nat) (s : State) : Res Unit :=
  match s.pio.intEntries[i]? with
  | none => .ok () s
  | some e =>
    if e.skipCount ≤ 1 then
      (pollDevice e.value s).andThen fun _ s => .ok () (setEntry i { e with skipCount := e.skipFactor } s)
    else .ok () (setEntry i { e with skipCount := e.skipCount - 1 } s)

/-- Poll `n` entries from entry `i` on, in list order. -/
def pollFrom : Nat → Nat → State → Res Unit
  | 0, _, s => .ok () s
  | n + 1, i, s => (pollEntry i s).andThen fun _ s => pollFrom n (i + 1) s

/-- `PollInterrupts()` (60_exceptions R531). -/
def pollInterrupts (s : State) : Res Unit := pollFrom s.pio.intEntries.length 0 s

/-- The record at an index of the ring, or a new one at its end. -/
def ringPut (ring : List HistoryRecord) (i : Nat) (r : HistoryRecord) : List HistoryRecord :=
  if i < ring.length then ring.set i r else ring ++ [r]

/-- `HistoryAppend()`: the flags and the two auxiliary registers are free values (60_exceptions R583, log 9). -/
def historyAppend (s : State) : State :=
  let r : HistoryRecord :=
    { flags := Config.freeByte s.free, bus := s.ctl.bus, r := s.regs.r, aux0 := Config.freeByte (s.free + 1),
      aux1 := Config.freeByte (s.free + 2) }
  { s with
    dbg := { s.dbg with history := ringPut s.dbg.history s.dbg.historyIndex r,
                        historyIndex := (s.dbg.historyIndex + 1) % historySize }
    free := s.free + 3 }

/-- Add `dt` to a bucket of a histogram, or open it. -/
def addToBucket (bank page block dt : Nat) : List ProfileBucket → List ProfileBucket
  | [] => [{ bank := bank, page := page, block := block, cycles := dt }]
  | b :: bs =>
    if b.bank = bank ∧ b.page = page ∧ b.block = block then { b with cycles := b.cycles + dt } :: bs
    else b :: addToBucket bank page block dt bs

/-- `ProfileAttribute(pc0, dt)` (60_exceptions R584). That the page is that of the bank's slot, even where a remap window
or the RAM version-2 shadow covers `pc0`, is the model's choice (log 10). -/
def profileAttribute (pc0 : Word) (dt : Nat) (s : State) : State :=
  let h := addToBucket (bankOf pc0).toNat (slotOf s pc0).page.toNat (Config.profilerBlock (offsetOf pc0)) dt s.dbg.histogram
  { s with dbg := { s.dbg with histogram := h } }

end Sys2Proof.Machine
end

