-- ==== Sys2Proof/Machine/Arith16.lean ====
section
/-! DEFINITION. 16-bit arithmetic (45_arith16). The number after `done` or `finish` is `T`. -/

namespace Sys2Proof.Machine

/-- `ADD HL,ss` (45_arith16 R370). -/
def execAddHlSs (p : Pair) (s : State) : Outcome :=
  let r := add16 s.regs.hl (s.regs.getPair p) s.regs.flags
  done 11 (onRegs (fun g => (g.setHl r.1).setFlags r.2) s)

/-- `ADC HL,ss` (45_arith16 R371). -/
def execAdcHlSs (p : Pair) (s : State) : Outcome :=
  let r := adc16 s.regs.hl (s.regs.getPair p) (carryIn s)
  done 15 (onRegs (fun g => (g.setHl r.1).setFlags r.2) s)

/-- `SBC HL,ss` (45_arith16 R372). -/
def execSbcHlSs (p : Pair) (s : State) : Outcome :=
  let r := sbc16 s.regs.hl (s.regs.getPair p) (carryIn s)
  done 15 (onRegs (fun g => (g.setHl r.1).setFlags r.2) s)

/-- `XY <- XY + pp`, flags as `ADD HL,ss` (45_arith16 R373). -/
def addIndex (x : Index) (p : XPair) (s : State) : State :=
  let r := add16 (s.regs.getXY x) (s.regs.getXPair x p) s.regs.flags
  onRegs (fun g => (g.setXY x r.1).setFlags r.2) s

/-- `ADD IX,pp` (45_arith16 R373). -/
def execAddIxPp (p : XPair) (s : State) : Outcome := done 15 (addIndex .ix p s)

/-- `ADD IY,rr` (45_arith16 R373). -/
def execAddIyRr (p : XPair) (s : State) : Outcome := done 15 (addIndex .iy p s)

/-- `INC ss` (45_arith16 R374). -/
def execIncSs (p : Pair) (s : State) : Outcome := done 6 (onRegs (fun g => g.setPair p (g.getPair p + 1)) s)

/-- `INC HL` (45_arith16 R374). -/
def execIncHl (s : State) : Outcome := done 6 (onRegs (fun g => g.setHl (g.hl + 1)) s)

/-- `INC IX` (45_arith16 R375). -/
def execIncIx (s : State) : Outcome := done 10 (onRegs (fun g => g.setXY .ix (g.getXY .ix + 1)) s)

/-- `INC IY` (45_arith16 R375). -/
def execIncIy (s : State) : Outcome := done 10 (onRegs (fun g => g.setXY .iy (g.getXY .iy + 1)) s)

/-- `DEC ss` (45_arith16 R376). -/
def execDecSs (p : Pair) (s : State) : Outcome := done 6 (onRegs (fun g => g.setPair p (g.getPair p - 1)) s)

/-- `DEC HL` (45_arith16 R376). -/
def execDecHl (s : State) : Outcome := done 6 (onRegs (fun g => g.setHl (g.hl - 1)) s)

/-- `DEC IX` (45_arith16 R377). -/
def execDecIx (s : State) : Outcome := done 10 (onRegs (fun g => g.setXY .ix (g.getXY .ix - 1)) s)

/-- `DEC IY` (45_arith16 R377). -/
def execDecIy (s : State) : Outcome := done 10 (onRegs (fun g => g.setXY .iy (g.getXY .iy - 1)) s)

end Sys2Proof.Machine
end

