-- ==== Sys2Proof/Machine/Arith8.lean ====
section
/-! DEFINITION. 8-bit arithmetic and logic (43_arith8). The number after `done` or `finish` is `T`. -/

namespace Sys2Proof.Machine

/-- An accumulator operation with a byte of memory (43_arith8 R306); `A` and the carry are those after the read (log 34). -/
def aluFrom (op : AluOp) (a : Word) (s : State) : Res Unit :=
  (memRead a s).andThen fun v s => .ok () (aluStep op v s)

/-- `r <- inc8(r)` for a register read and written by `get` and `set` (43_arith8 R315). -/
def incWith (get : Regs → Byte) (set : Byte → Regs → Regs) (g : Regs) : Regs :=
  let r := inc8 (get g) g.flags
  (set r.1 g).setFlags r.2

/-- `r <- dec8(r)` (43_arith8 R318). -/
def decWith (get : Regs → Byte) (set : Byte → Regs → Regs) (g : Regs) : Regs :=
  let r := dec8 (get g) g.flags
  (set r.1 g).setFlags r.2

/-- `ADD A,r` (43_arith8 R307, R306). -/
def execAddAR (r : Reg8) (s : State) : Outcome := done 4 (aluStep .add (s.regs.get8 r) s)

/-- `ADD A,n` (43_arith8 R307, R306). -/
def execAddAN (n : Byte) (s : State) : Outcome := done 7 (aluStep .add n s)

/-- `ADD A,(HL)` (43_arith8 R307, R306). -/
def execAddAMemHl (s : State) : Outcome := (aluFrom .add s.regs.hl s).finish 7

/-- `ADD A,(IX+d)` (43_arith8 R307, R306). -/
def execAddAMemIx (d : Byte) (s : State) : Outcome := (aluFrom .add (indexAddr .ix d s) s).finish 19

/-- `ADD A,(IY+d)` (43_arith8 R307, R306). -/
def execAddAMemIy (d : Byte) (s : State) : Outcome := (aluFrom .add (indexAddr .iy d s) s).finish 19

/-- `ADD A,IXH` (43_arith8 R307, R321). -/
def execAddAIxh (s : State) : Outcome := done 8 (aluStep .add (s.regs.getHalf .ix .hi) s)

/-- `ADD A,IXL` (43_arith8 R307, R321). -/
def execAddAIxl (s : State) : Outcome := done 8 (aluStep .add (s.regs.getHalf .ix .lo) s)

/-- `ADD A,IYH` (43_arith8 R307, R321). -/
def execAddAIyh (s : State) : Outcome := done 8 (aluStep .add (s.regs.getHalf .iy .hi) s)

/-- `ADD A,IYL` (43_arith8 R307, R321). -/
def execAddAIyl (s : State) : Outcome := done 8 (aluStep .add (s.regs.getHalf .iy .lo) s)

/-- `ADC A,r` (43_arith8 R308, R306). -/
def execAdcAR (r : Reg8) (s : State) : Outcome := done 4 (aluStep .adc (s.regs.get8 r) s)

/-- `ADC A,n` (43_arith8 R308, R306). -/
def execAdcAN (n : Byte) (s : State) : Outcome := done 7 (aluStep .adc n s)

/-- `ADC A,(HL)` (43_arith8 R308, R306). -/
def execAdcAMemHl (s : State) : Outcome := (aluFrom .adc s.regs.hl s).finish 7

/-- `ADC A,(IX+d)` (43_arith8 R308, R306). -/
def execAdcAMemIx (d : Byte) (s : State) : Outcome := (aluFrom .adc (indexAddr .ix d s) s).finish 19

/-- `ADC A,(IY+d)` (43_arith8 R308, R306). -/
def execAdcAMemIy (d : Byte) (s : State) : Outcome := (aluFrom .adc (indexAddr .iy d s) s).finish 19

/-- `ADC A,IXH` (43_arith8 R308, R321). -/
def execAdcAIxh (s : State) : Outcome := done 8 (aluStep .adc (s.regs.getHalf .ix .hi) s)

/-- `ADC A,IXL` (43_arith8 R308, R321). -/
def execAdcAIxl (s : State) : Outcome := done 8 (aluStep .adc (s.regs.getHalf .ix .lo) s)

/-- `ADC A,IYH` (43_arith8 R308, R321). -/
def execAdcAIyh (s : State) : Outcome := done 8 (aluStep .adc (s.regs.getHalf .iy .hi) s)

/-- `ADC A,IYL` (43_arith8 R308, R321). -/
def execAdcAIyl (s : State) : Outcome := done 8 (aluStep .adc (s.regs.getHalf .iy .lo) s)

/-- `SUB r` (43_arith8 R309, R306). -/
def execSubAR (r : Reg8) (s : State) : Outcome := done 4 (aluStep .sub (s.regs.get8 r) s)

/-- `SUB n` (43_arith8 R309, R306). -/
def execSubAN (n : Byte) (s : State) : Outcome := done 7 (aluStep .sub n s)

/-- `SUB (HL)` (43_arith8 R309, R306). -/
def execSubAMemHl (s : State) : Outcome := (aluFrom .sub s.regs.hl s).finish 7

/-- `SUB (IX+d)` (43_arith8 R309, R306). -/
def execSubAMemIx (d : Byte) (s : State) : Outcome := (aluFrom .sub (indexAddr .ix d s) s).finish 19

/-- `SUB (IY+d)` (43_arith8 R309, R306). -/
def execSubAMemIy (d : Byte) (s : State) : Outcome := (aluFrom .sub (indexAddr .iy d s) s).finish 19

/-- `SUB IXH` (43_arith8 R309, R321). -/
def execSubAIxh (s : State) : Outcome := done 8 (aluStep .sub (s.regs.getHalf .ix .hi) s)

/-- `SUB IXL` (43_arith8 R309, R321). -/
def execSubAIxl (s : State) : Outcome := done 8 (aluStep .sub (s.regs.getHalf .ix .lo) s)

/-- `SUB IYH` (43_arith8 R309, R321). -/
def execSubAIyh (s : State) : Outcome := done 8 (aluStep .sub (s.regs.getHalf .iy .hi) s)

/-- `SUB IYL` (43_arith8 R309, R321). -/
def execSubAIyl (s : State) : Outcome := done 8 (aluStep .sub (s.regs.getHalf .iy .lo) s)

/-- `SBC A,r` (43_arith8 R310, R306). -/
def execSbcAR (r : Reg8) (s : State) : Outcome := done 4 (aluStep .sbc (s.regs.get8 r) s)

/-- `SBC A,n` (43_arith8 R310, R306). -/
def execSbcAN (n : Byte) (s : State) : Outcome := done 7 (aluStep .sbc n s)

/-- `SBC A,(HL)` (43_arith8 R310, R306). -/
def execSbcAMemHl (s : State) : Outcome := (aluFrom .sbc s.regs.hl s).finish 7

/-- `SBC A,(IX+d)` (43_arith8 R310, R306). -/
def execSbcAMemIx (d : Byte) (s : State) : Outcome := (aluFrom .sbc (indexAddr .ix d s) s).finish 19

/-- `SBC A,(IY+d)` (43_arith8 R310, R306). -/
def execSbcAMemIy (d : Byte) (s : State) : Outcome := (aluFrom .sbc (indexAddr .iy d s) s).finish 19

/-- `SBC A,IXH` (43_arith8 R310, R321). -/
def execSbcAIxh (s : State) : Outcome := done 8 (aluStep .sbc (s.regs.getHalf .ix .hi) s)

/-- `SBC A,IXL` (43_arith8 R310, R321). -/
def execSbcAIxl (s : State) : Outcome := done 8 (aluStep .sbc (s.regs.getHalf .ix .lo) s)

/-- `SBC A,IYH` (43_arith8 R310, R321). -/
def execSbcAIyh (s : State) : Outcome := done 8 (aluStep .sbc (s.regs.getHalf .iy .hi) s)

/-- `SBC A,IYL` (43_arith8 R310, R321). -/
def execSbcAIyl (s : State) : Outcome := done 8 (aluStep .sbc (s.regs.getHalf .iy .lo) s)

/-- `AND r` (43_arith8 R311, R306). -/
def execAndAR (r : Reg8) (s : State) : Outcome := done 4 (aluStep .and (s.regs.get8 r) s)

/-- `AND n` (43_arith8 R311, R306). -/
def execAndAN (n : Byte) (s : State) : Outcome := done 7 (aluStep .and n s)

/-- `AND (HL)` (43_arith8 R311, R306). -/
def execAndAMemHl (s : State) : Outcome := (aluFrom .and s.regs.hl s).finish 7

/-- `AND (IX+d)` (43_arith8 R311, R306). -/
def execAndAMemIx (d : Byte) (s : State) : Outcome := (aluFrom .and (indexAddr .ix d s) s).finish 19

/-- `AND (IY+d)` (43_arith8 R311, R306). -/
def execAndAMemIy (d : Byte) (s : State) : Outcome := (aluFrom .and (indexAddr .iy d s) s).finish 19

/-- `AND IXH` (43_arith8 R311, R321). -/
def execAndAIxh (s : State) : Outcome := done 8 (aluStep .and (s.regs.getHalf .ix .hi) s)

/-- `AND IXL` (43_arith8 R311, R321). -/
def execAndAIxl (s : State) : Outcome := done 8 (aluStep .and (s.regs.getHalf .ix .lo) s)

/-- `AND IYH` (43_arith8 R311, R321). -/
def execAndAIyh (s : State) : Outcome := done 8 (aluStep .and (s.regs.getHalf .iy .hi) s)

/-- `AND IYL` (43_arith8 R311, R321). -/
def execAndAIyl (s : State) : Outcome := done 8 (aluStep .and (s.regs.getHalf .iy .lo) s)

/-- `XOR r` (43_arith8 R312, R306). -/
def execXorAR (r : Reg8) (s : State) : Outcome := done 4 (aluStep .xor (s.regs.get8 r) s)

/-- `XOR n` (43_arith8 R312, R306). -/
def execXorAN (n : Byte) (s : State) : Outcome := done 7 (aluStep .xor n s)

/-- `XOR (HL)` (43_arith8 R312, R306). -/
def execXorAMemHl (s : State) : Outcome := (aluFrom .xor s.regs.hl s).finish 7

/-- `XOR (IX+d)` (43_arith8 R312, R306). -/
def execXorAMemIx (d : Byte) (s : State) : Outcome := (aluFrom .xor (indexAddr .ix d s) s).finish 19

/-- `XOR (IY+d)` (43_arith8 R312, R306). -/
def execXorAMemIy (d : Byte) (s : State) : Outcome := (aluFrom .xor (indexAddr .iy d s) s).finish 19

/-- `XOR IXH` (43_arith8 R312, R321). -/
def execXorAIxh (s : State) : Outcome := done 8 (aluStep .xor (s.regs.getHalf .ix .hi) s)

/-- `XOR IXL` (43_arith8 R312, R321). -/
def execXorAIxl (s : State) : Outcome := done 8 (aluStep .xor (s.regs.getHalf .ix .lo) s)

/-- `XOR IYH` (43_arith8 R312, R321). -/
def execXorAIyh (s : State) : Outcome := done 8 (aluStep .xor (s.regs.getHalf .iy .hi) s)

/-- `XOR IYL` (43_arith8 R312, R321). -/
def execXorAIyl (s : State) : Outcome := done 8 (aluStep .xor (s.regs.getHalf .iy .lo) s)

/-- `OR r` (43_arith8 R313, R306). -/
def execOrAR (r : Reg8) (s : State) : Outcome := done 4 (aluStep .or (s.regs.get8 r) s)

/-- `OR n` (43_arith8 R313, R306). -/
def execOrAN (n : Byte) (s : State) : Outcome := done 7 (aluStep .or n s)

/-- `OR (HL)` (43_arith8 R313, R306). -/
def execOrAMemHl (s : State) : Outcome := (aluFrom .or s.regs.hl s).finish 7

/-- `OR (IX+d)` (43_arith8 R313, R306). -/
def execOrAMemIx (d : Byte) (s : State) : Outcome := (aluFrom .or (indexAddr .ix d s) s).finish 19

/-- `OR (IY+d)` (43_arith8 R313, R306). -/
def execOrAMemIy (d : Byte) (s : State) : Outcome := (aluFrom .or (indexAddr .iy d s) s).finish 19

/-- `OR IXH` (43_arith8 R313, R321). -/
def execOrAIxh (s : State) : Outcome := done 8 (aluStep .or (s.regs.getHalf .ix .hi) s)

/-- `OR IXL` (43_arith8 R313, R321). -/
def execOrAIxl (s : State) : Outcome := done 8 (aluStep .or (s.regs.getHalf .ix .lo) s)

/-- `OR IYH` (43_arith8 R313, R321). -/
def execOrAIyh (s : State) : Outcome := done 8 (aluStep .or (s.regs.getHalf .iy .hi) s)

/-- `OR IYL` (43_arith8 R313, R321). -/
def execOrAIyl (s : State) : Outcome := done 8 (aluStep .or (s.regs.getHalf .iy .lo) s)

/-- `CP r` (43_arith8 R314, R306). -/
def execCpAR (r : Reg8) (s : State) : Outcome := done 4 (aluStep .cp (s.regs.get8 r) s)

/-- `CP n` (43_arith8 R314, R306). -/
def execCpAN (n : Byte) (s : State) : Outcome := done 7 (aluStep .cp n s)

/-- `CP (HL)` (43_arith8 R314, R306). -/
def execCpAMemHl (s : State) : Outcome := (aluFrom .cp s.regs.hl s).finish 7

/-- `CP (IX+d)` (43_arith8 R314, R306). -/
def execCpAMemIx (d : Byte) (s : State) : Outcome := (aluFrom .cp (indexAddr .ix d s) s).finish 19

/-- `CP (IY+d)` (43_arith8 R314, R306). -/
def execCpAMemIy (d : Byte) (s : State) : Outcome := (aluFrom .cp (indexAddr .iy d s) s).finish 19

/-- `CP IXH` (43_arith8 R314, R321). -/
def execCpAIxh (s : State) : Outcome := done 8 (aluStep .cp (s.regs.getHalf .ix .hi) s)

/-- `CP IXL` (43_arith8 R314, R321). -/
def execCpAIxl (s : State) : Outcome := done 8 (aluStep .cp (s.regs.getHalf .ix .lo) s)

/-- `CP IYH` (43_arith8 R314, R321). -/
def execCpAIyh (s : State) : Outcome := done 8 (aluStep .cp (s.regs.getHalf .iy .hi) s)

/-- `CP IYL` (43_arith8 R314, R321). -/
def execCpAIyl (s : State) : Outcome := done 8 (aluStep .cp (s.regs.getHalf .iy .lo) s)

/-- `INC r` (43_arith8 R315). -/
def execIncR (r : Reg8) (s : State) : Outcome := done 4 (onRegs (incWith (Regs.get8 r) (Regs.set8 r)) s)

/-- `INC (HL)` (43_arith8 R316). -/
def execIncMemHl (s : State) : Outcome := (modifyFlagsFirst atHl inc8 s).finish 11

/-- `INC (IX+d)` (43_arith8 R317). -/
def execIncMemIx (d : Byte) (s : State) : Outcome := (modifyFlagsFirst (fun _ => indexAddr .ix d s) inc8 s).finish 23

/-- `INC (IY+d)` (43_arith8 R317). -/
def execIncMemIy (d : Byte) (s : State) : Outcome := (modifyFlagsFirst (fun _ => indexAddr .iy d s) inc8 s).finish 23

/-- `INC IXH` (43_arith8 R321). -/
def execIncIxh (s : State) : Outcome := done 8 (onRegs (incWith (Regs.getHalf .ix .hi) (Regs.setHalf .ix .hi)) s)

/-- `INC IXL` (43_arith8 R321). -/
def execIncIxl (s : State) : Outcome := done 8 (onRegs (incWith (Regs.getHalf .ix .lo) (Regs.setHalf .ix .lo)) s)

/-- `INC IYH` (43_arith8 R321). -/
def execIncIyh (s : State) : Outcome := done 8 (onRegs (incWith (Regs.getHalf .iy .hi) (Regs.setHalf .iy .hi)) s)

/-- `INC IYL` (43_arith8 R321). -/
def execIncIyl (s : State) : Outcome := done 8 (onRegs (incWith (Regs.getHalf .iy .lo) (Regs.setHalf .iy .lo)) s)

/-- `DEC r` (43_arith8 R318). -/
def execDecR (r : Reg8) (s : State) : Outcome := done 4 (onRegs (decWith (Regs.get8 r) (Regs.set8 r)) s)

/-- `DEC (HL)` (43_arith8 R319). -/
def execDecMemHl (s : State) : Outcome := (modifyFlagsFirst atHl dec8 s).finish 11

/-- `DEC (IX+d)` (43_arith8 R320). -/
def execDecMemIx (d : Byte) (s : State) : Outcome := (modifyFlagsFirst (fun _ => indexAddr .ix d s) dec8 s).finish 23

/-- `DEC (IY+d)` (43_arith8 R320). -/
def execDecMemIy (d : Byte) (s : State) : Outcome := (modifyFlagsFirst (fun _ => indexAddr .iy d s) dec8 s).finish 23

/-- `DEC IXH` (43_arith8 R321). -/
def execDecIxh (s : State) : Outcome := done 8 (onRegs (decWith (Regs.getHalf .ix .hi) (Regs.setHalf .ix .hi)) s)

/-- `DEC IXL` (43_arith8 R321). -/
def execDecIxl (s : State) : Outcome := done 8 (onRegs (decWith (Regs.getHalf .ix .lo) (Regs.setHalf .ix .lo)) s)

/-- `DEC IYH` (43_arith8 R321). -/
def execDecIyh (s : State) : Outcome := done 8 (onRegs (decWith (Regs.getHalf .iy .hi) (Regs.setHalf .iy .hi)) s)

/-- `DEC IYL` (43_arith8 R321). -/
def execDecIyl (s : State) : Outcome := done 8 (onRegs (decWith (Regs.getHalf .iy .lo) (Regs.setHalf .iy .lo)) s)

end Sys2Proof.Machine
end

