-- ==== Sys2Proof/Machine/Rotate.lean ====
section
/-! DEFINITION. Rotates and shifts (46_rotate_shift). The number after `done` or `finish` is `T`. -/

namespace Sys2Proof.Machine

/-- A rotate of `A` by the base table: `S`, `Z`, `PV` kept (46_rotate_shift, before R390). -/
def rotateAcc (op : RotOp) (s : State) : State :=
  let r := rotResult op s.regs.a (carryIn s)
  setAccFlags (r.1, rotAccFlags r.1 r.2 s.regs.flags) s

/-- `r[z] <- rot(r[z])` with all flags (46_rotate_shift R395). -/
def rotateReg (op : RotOp) (r : Reg8) (s : State) : State :=
  let v := rotResult op (s.regs.get8 r) (carryIn s)
  onRegs (fun g => (g.set8 r v.1).setFlags (rotFlags v.1 v.2)) s

/-- An operation on memory whose result is also copied into a register (46_rotate_shift R406, 47_bit R439). -/
def copyInto (r : Reg8) (x : Res Byte) : Res Unit :=
  x.andThen fun v s => .ok () (onRegs (Regs.set8 r v) s)

/-- `RLD`, `RRD`: `k` gives what goes to memory and what to `A`, from `A` and the byte `t`; the new `A` is made from `A` as it
is after the write (46_rotate_shift R404, R405; log 27). -/
def rotateDigits (k : Byte → Byte → Byte × Byte) (s : State) : Res Unit :=
  (memRead s.regs.hl s).andThen fun t s =>
    (memWrite s.regs.hl (k s.regs.a t).1 s).andThen fun _ s =>
      let a := (k s.regs.a t).2
      .ok () (setAccFlags (a, parityFlags a s.regs.flags) s)

/-- `RLD` on `A` and `t`: memory, then `A`. -/
def leftDigits (a t : Byte) : Byte × Byte := (lowNibble t ++ lowNibble a, highNibble a ++ highNibble t)

/-- `RRD` on `A` and `t`. -/
def rightDigits (a t : Byte) : Byte × Byte := (lowNibble a ++ highNibble t, highNibble a ++ lowNibble t)

/-- `RLCA` (46_rotate_shift R390). -/
def execRlca (s : State) : Outcome := done 4 (rotateAcc .rlc s)

/-- `RLA` (46_rotate_shift R391). -/
def execRla (s : State) : Outcome := done 4 (rotateAcc .rl s)

/-- `RRCA` (46_rotate_shift R392). -/
def execRrca (s : State) : Outcome := done 4 (rotateAcc .rrc s)

/-- `RRA` (46_rotate_shift R393). -/
def execRra (s : State) : Outcome := done 4 (rotateAcc .rr s)

/-- `RLC r` (46_rotate_shift R396, R394, R395). -/
def execRlcR (r : Reg8) (s : State) : Outcome := done 8 (rotateReg .rlc r s)

/-- `RLC (HL)` (46_rotate_shift R396, R394, R395). -/
def execRlcMemHl (s : State) : Outcome := (rotateMem .rlc atHl s).finish 15

/-- `RLC (IX+d)` (46_rotate_shift R396, R394, R395). -/
def execRlcMemIx (d : Byte) (s : State) : Outcome := (rotateMem .rlc (fun _ => indexAddr .ix d s) s).finish 23

/-- `RLC (IX+d),r` (46_rotate_shift R406). -/
def execRlcMemIxR (d : Byte) (r : Reg8) (s : State) : Outcome :=
  (copyInto r (rotateMem .rlc (fun _ => indexAddr .ix d s) s)).finish 23

/-- `RLC (IY+d)` (46_rotate_shift R396, R394, R395). -/
def execRlcMemIy (d : Byte) (s : State) : Outcome := (rotateMem .rlc (fun _ => indexAddr .iy d s) s).finish 23

/-- `RLC (IY+d),r` (46_rotate_shift R406). -/
def execRlcMemIyR (d : Byte) (r : Reg8) (s : State) : Outcome :=
  (copyInto r (rotateMem .rlc (fun _ => indexAddr .iy d s) s)).finish 23

/-- `RRC r` (46_rotate_shift R397, R394, R395). -/
def execRrcR (r : Reg8) (s : State) : Outcome := done 8 (rotateReg .rrc r s)

/-- `RRC (HL)` (46_rotate_shift R397, R394, R395). -/
def execRrcMemHl (s : State) : Outcome := (rotateMem .rrc atHl s).finish 15

/-- `RRC (IX+d)` (46_rotate_shift R397, R394, R395). -/
def execRrcMemIx (d : Byte) (s : State) : Outcome := (rotateMem .rrc (fun _ => indexAddr .ix d s) s).finish 23

/-- `RRC (IX+d),r` (46_rotate_shift R406). -/
def execRrcMemIxR (d : Byte) (r : Reg8) (s : State) : Outcome :=
  (copyInto r (rotateMem .rrc (fun _ => indexAddr .ix d s) s)).finish 23

/-- `RRC (IY+d)` (46_rotate_shift R397, R394, R395). -/
def execRrcMemIy (d : Byte) (s : State) : Outcome := (rotateMem .rrc (fun _ => indexAddr .iy d s) s).finish 23

/-- `RRC (IY+d),r` (46_rotate_shift R406). -/
def execRrcMemIyR (d : Byte) (r : Reg8) (s : State) : Outcome :=
  (copyInto r (rotateMem .rrc (fun _ => indexAddr .iy d s) s)).finish 23

/-- `RL r` (46_rotate_shift R398, R394, R395). -/
def execRlR (r : Reg8) (s : State) : Outcome := done 8 (rotateReg .rl r s)

/-- `RL (HL)` (46_rotate_shift R398, R394, R395). -/
def execRlMemHl (s : State) : Outcome := (rotateMem .rl atHl s).finish 15

/-- `RL (IX+d)` (46_rotate_shift R398, R394, R395). -/
def execRlMemIx (d : Byte) (s : State) : Outcome := (rotateMem .rl (fun _ => indexAddr .ix d s) s).finish 23

/-- `RL (IX+d),r` (46_rotate_shift R406). -/
def execRlMemIxR (d : Byte) (r : Reg8) (s : State) : Outcome :=
  (copyInto r (rotateMem .rl (fun _ => indexAddr .ix d s) s)).finish 23

/-- `RL (IY+d)` (46_rotate_shift R398, R394, R395). -/
def execRlMemIy (d : Byte) (s : State) : Outcome := (rotateMem .rl (fun _ => indexAddr .iy d s) s).finish 23

/-- `RL (IY+d),r` (46_rotate_shift R406). -/
def execRlMemIyR (d : Byte) (r : Reg8) (s : State) : Outcome :=
  (copyInto r (rotateMem .rl (fun _ => indexAddr .iy d s) s)).finish 23

/-- `RR r` (46_rotate_shift R399, R394, R395). -/
def execRrR (r : Reg8) (s : State) : Outcome := done 8 (rotateReg .rr r s)

/-- `RR (HL)` (46_rotate_shift R399, R394, R395). -/
def execRrMemHl (s : State) : Outcome := (rotateMem .rr atHl s).finish 15

/-- `RR (IX+d)` (46_rotate_shift R399, R394, R395). -/
def execRrMemIx (d : Byte) (s : State) : Outcome := (rotateMem .rr (fun _ => indexAddr .ix d s) s).finish 23

/-- `RR (IX+d),r` (46_rotate_shift R406). -/
def execRrMemIxR (d : Byte) (r : Reg8) (s : State) : Outcome :=
  (copyInto r (rotateMem .rr (fun _ => indexAddr .ix d s) s)).finish 23

/-- `RR (IY+d)` (46_rotate_shift R399, R394, R395). -/
def execRrMemIy (d : Byte) (s : State) : Outcome := (rotateMem .rr (fun _ => indexAddr .iy d s) s).finish 23

/-- `RR (IY+d),r` (46_rotate_shift R406). -/
def execRrMemIyR (d : Byte) (r : Reg8) (s : State) : Outcome :=
  (copyInto r (rotateMem .rr (fun _ => indexAddr .iy d s) s)).finish 23

/-- `SLA r` (46_rotate_shift R400, R394, R395). -/
def execSlaR (r : Reg8) (s : State) : Outcome := done 8 (rotateReg .sla r s)

/-- `SLA (HL)` (46_rotate_shift R400, R394, R395). -/
def execSlaMemHl (s : State) : Outcome := (rotateMem .sla atHl s).finish 15

/-- `SLA (IX+d)` (46_rotate_shift R400, R394, R395). -/
def execSlaMemIx (d : Byte) (s : State) : Outcome := (rotateMem .sla (fun _ => indexAddr .ix d s) s).finish 23

/-- `SLA (IX+d),r` (46_rotate_shift R406). -/
def execSlaMemIxR (d : Byte) (r : Reg8) (s : State) : Outcome :=
  (copyInto r (rotateMem .sla (fun _ => indexAddr .ix d s) s)).finish 23

/-- `SLA (IY+d)` (46_rotate_shift R400, R394, R395). -/
def execSlaMemIy (d : Byte) (s : State) : Outcome := (rotateMem .sla (fun _ => indexAddr .iy d s) s).finish 23

/-- `SLA (IY+d),r` (46_rotate_shift R406). -/
def execSlaMemIyR (d : Byte) (r : Reg8) (s : State) : Outcome :=
  (copyInto r (rotateMem .sla (fun _ => indexAddr .iy d s) s)).finish 23

/-- `SRA r` (46_rotate_shift R401, R394, R395). -/
def execSraR (r : Reg8) (s : State) : Outcome := done 8 (rotateReg .sra r s)

/-- `SRA (HL)` (46_rotate_shift R401, R394, R395). -/
def execSraMemHl (s : State) : Outcome := (rotateMem .sra atHl s).finish 15

/-- `SRA (IX+d)` (46_rotate_shift R401, R394, R395). -/
def execSraMemIx (d : Byte) (s : State) : Outcome := (rotateMem .sra (fun _ => indexAddr .ix d s) s).finish 23

/-- `SRA (IX+d),r` (46_rotate_shift R406). -/
def execSraMemIxR (d : Byte) (r : Reg8) (s : State) : Outcome :=
  (copyInto r (rotateMem .sra (fun _ => indexAddr .ix d s) s)).finish 23

/-- `SRA (IY+d)` (46_rotate_shift R401, R394, R395). -/
def execSraMemIy (d : Byte) (s : State) : Outcome := (rotateMem .sra (fun _ => indexAddr .iy d s) s).finish 23

/-- `SRA (IY+d),r` (46_rotate_shift R406). -/
def execSraMemIyR (d : Byte) (r : Reg8) (s : State) : Outcome :=
  (copyInto r (rotateMem .sra (fun _ => indexAddr .iy d s) s)).finish 23

/-- `SLL r` (46_rotate_shift R403, R394, R395). -/
def execSllR (r : Reg8) (s : State) : Outcome := done 8 (rotateReg .sll r s)

/-- `SLL (HL)` (46_rotate_shift R403, R394, R395). -/
def execSllMemHl (s : State) : Outcome := (rotateMem .sll atHl s).finish 15

/-- `SLL (IX+d)` (46_rotate_shift R403, R394, R395). -/
def execSllMemIx (d : Byte) (s : State) : Outcome := (rotateMem .sll (fun _ => indexAddr .ix d s) s).finish 23

/-- `SLL (IX+d),r` (46_rotate_shift R406). -/
def execSllMemIxR (d : Byte) (r : Reg8) (s : State) : Outcome :=
  (copyInto r (rotateMem .sll (fun _ => indexAddr .ix d s) s)).finish 23

/-- `SLL (IY+d)` (46_rotate_shift R403, R394, R395). -/
def execSllMemIy (d : Byte) (s : State) : Outcome := (rotateMem .sll (fun _ => indexAddr .iy d s) s).finish 23

/-- `SLL (IY+d),r` (46_rotate_shift R406). -/
def execSllMemIyR (d : Byte) (r : Reg8) (s : State) : Outcome :=
  (copyInto r (rotateMem .sll (fun _ => indexAddr .iy d s) s)).finish 23

/-- `SRL r` (46_rotate_shift R402, R394, R395). -/
def execSrlR (r : Reg8) (s : State) : Outcome := done 8 (rotateReg .srl r s)

/-- `SRL (HL)` (46_rotate_shift R402, R394, R395). -/
def execSrlMemHl (s : State) : Outcome := (rotateMem .srl atHl s).finish 15

/-- `SRL (IX+d)` (46_rotate_shift R402, R394, R395). -/
def execSrlMemIx (d : Byte) (s : State) : Outcome := (rotateMem .srl (fun _ => indexAddr .ix d s) s).finish 23

/-- `SRL (IX+d),r` (46_rotate_shift R406). -/
def execSrlMemIxR (d : Byte) (r : Reg8) (s : State) : Outcome :=
  (copyInto r (rotateMem .srl (fun _ => indexAddr .ix d s) s)).finish 23

/-- `SRL (IY+d)` (46_rotate_shift R402, R394, R395). -/
def execSrlMemIy (d : Byte) (s : State) : Outcome := (rotateMem .srl (fun _ => indexAddr .iy d s) s).finish 23

/-- `SRL (IY+d),r` (46_rotate_shift R406). -/
def execSrlMemIyR (d : Byte) (r : Reg8) (s : State) : Outcome :=
  (copyInto r (rotateMem .srl (fun _ => indexAddr .iy d s) s)).finish 23

/-- `RLD` (46_rotate_shift R404). -/
def execRld (s : State) : Outcome := (rotateDigits leftDigits s).finish 18

/-- `RRD` (46_rotate_shift R405). -/
def execRrd (s : State) : Outcome := (rotateDigits rightDigits s).finish 18

end Sys2Proof.Machine
end

