-- ==== Sys2Proof/Machine/Bit.lean ====
section
/-! DEFINITION. Bit test, set and reset (47_bit). The number after `done` or `finish` is `T`. -/

namespace Sys2Proof.Machine

/-- `BIT b,(XY+d)`: `X` and `Y` from the high byte of the address (47_bit R432). -/
def bitIndexed (b : BitVec 3) (a : Word) (s : State) : Res Unit :=
  (memRead a s).andThen fun v s =>
    .ok () (setFlags (bitFlags b v (a.getLsbD 13) (a.getLsbD 11) s.regs.flags) s)

/-- `BIT b,(HL)`: `X` and `Y` from a free byte (47_bit R431, log 8). -/
def bitAtHl (b : BitVec 3) (s : State) : Res Unit :=
  (memRead s.regs.hl s).andThen fun v s =>
    let free := drawFree s
    .ok () (setFlags (bitFlags b v (free.1.getLsbD 5) (free.1.getLsbD 3) s.regs.flags) free.2)

/-- `BIT b,r` (47_bit R430). -/
def execBitBR (b : BitVec 3) (r : Reg8) (s : State) : Outcome :=
  let v := s.regs.get8 r
  done 8 (setFlags (bitFlags b v (v.getLsbD 5) (v.getLsbD 3) s.regs.flags) s)

/-- `BIT b,(HL)` (47_bit R431). -/
def execBitBMemHl (b : BitVec 3) (s : State) : Outcome := (bitAtHl b s).finish 12

/-- `RES b,r` (47_bit R436). -/
def execResBR (b : BitVec 3) (r : Reg8) (s : State) : Outcome :=
  done 8 (onRegs (fun g => g.set8 r (resBit b (g.get8 r))) s)

/-- `RES b,(HL)` (47_bit R437). -/
def execResBMemHl (b : BitVec 3) (s : State) : Outcome := (changeBitMem (resBit b) atHl s).finish 15

/-- `SET b,r` (47_bit R433). -/
def execSetBR (b : BitVec 3) (r : Reg8) (s : State) : Outcome :=
  done 8 (onRegs (fun g => g.set8 r (setBit b (g.get8 r))) s)

/-- `SET b,(HL)` (47_bit R434). -/
def execSetBMemHl (b : BitVec 3) (s : State) : Outcome := (changeBitMem (setBit b) atHl s).finish 15

/-- `BIT b,(IX+d)` (47_bit R432). -/
def execBitBMemIx (b : BitVec 3) (d : Byte) (s : State) : Outcome := (bitIndexed b (indexAddr .ix d s) s).finish 20

/-- `BIT b,(IX+d) (copy, z != 6)` (47_bit R432). -/
def execBitBMemIxCopy (b : BitVec 3) (d : Byte) (_z : Reg8) (s : State) : Outcome :=
  (bitIndexed b (indexAddr .ix d s) s).finish 20

/-- `RES b,(IX+d)` (47_bit R438). -/
def execResBMemIx (b : BitVec 3) (d : Byte) (s : State) : Outcome :=
  (changeBitMem (resBit b) (fun _ => indexAddr .ix d s) s).finish 23

/-- `RES b,(IX+d),r` (47_bit R439). -/
def execResBMemIxR (b : BitVec 3) (d : Byte) (r : Reg8) (s : State) : Outcome :=
  (copyInto r (changeBitMem (resBit b) (fun _ => indexAddr .ix d s) s)).finish 23

/-- `SET b,(IX+d)` (47_bit R435). -/
def execSetBMemIx (b : BitVec 3) (d : Byte) (s : State) : Outcome :=
  (changeBitMem (setBit b) (fun _ => indexAddr .ix d s) s).finish 23

/-- `SET b,(IX+d),r` (47_bit R439). -/
def execSetBMemIxR (b : BitVec 3) (d : Byte) (r : Reg8) (s : State) : Outcome :=
  (copyInto r (changeBitMem (setBit b) (fun _ => indexAddr .ix d s) s)).finish 23

/-- `BIT b,(IY+d)` (47_bit R432). -/
def execBitBMemIy (b : BitVec 3) (d : Byte) (s : State) : Outcome := (bitIndexed b (indexAddr .iy d s) s).finish 20

/-- `BIT b,(IY+d) (copy, z != 6)` (47_bit R432). -/
def execBitBMemIyCopy (b : BitVec 3) (d : Byte) (_z : Reg8) (s : State) : Outcome :=
  (bitIndexed b (indexAddr .iy d s) s).finish 20

/-- `RES b,(IY+d)` (47_bit R438). -/
def execResBMemIy (b : BitVec 3) (d : Byte) (s : State) : Outcome :=
  (changeBitMem (resBit b) (fun _ => indexAddr .iy d s) s).finish 23

/-- `RES b,(IY+d),r` (47_bit R439). -/
def execResBMemIyR (b : BitVec 3) (d : Byte) (r : Reg8) (s : State) : Outcome :=
  (copyInto r (changeBitMem (resBit b) (fun _ => indexAddr .iy d s) s)).finish 23

/-- `SET b,(IY+d)` (47_bit R435). -/
def execSetBMemIy (b : BitVec 3) (d : Byte) (s : State) : Outcome :=
  (changeBitMem (setBit b) (fun _ => indexAddr .iy d s) s).finish 23

/-- `SET b,(IY+d),r` (47_bit R439). -/
def execSetBMemIyR (b : BitVec 3) (d : Byte) (r : Reg8) (s : State) : Outcome :=
  (copyInto r (changeBitMem (setBit b) (fun _ => indexAddr .iy d s) s)).finish 23

end Sys2Proof.Machine
end

