-- ==== Sys2Proof/Machine/Control.lean ====
section
/-! DEFINITION. General-purpose arithmetic and CPU control (44_cpu_control). The number after `done` or `finish` is `T`. -/

namespace Sys2Proof.Machine

/-- `IFF1 <- v; IFF2 <- v` (44_cpu_control R347, R348). -/
def setIff (v : Bool) (s : State) : State := onRegs (fun g => { g with iff1 := v, iff2 := v }) s

/-- `IM <- m` (44_cpu_control R349). -/
def setIm (m : IntMode) (s : State) : State := onRegs (fun g => { g with im := m }) s

/-- `(A, F) <- sub8(0, A, 0)` (44_cpu_control R342). -/
def negate (s : State) : State := setAccFlags (sub8 0 s.regs.a false) s

/-- `DAA` (44_cpu_control R340). -/
def execDaa (s : State) : Outcome := done 4 (setAccFlags (daaResult s.regs.a s.regs.flags) s)

/-- `CPL` (44_cpu_control R341). -/
def execCpl (s : State) : Outcome := done 4 (setAccFlags (cplResult s.regs.a s.regs.flags) s)

/-- `NEG` (44_cpu_control R342). -/
def execNeg (s : State) : Outcome := done 8 (negate s)

/-- `CCF` (44_cpu_control R343). -/
def execCcf (s : State) : Outcome := done 4 (setFlags (ccfFlags s.regs.a s.regs.flags) s)

/-- `SCF` (44_cpu_control R344). -/
def execScf (s : State) : Outcome := done 4 (setFlags (scfFlags s.regs.a s.regs.flags) s)

/-- `NOP` (44_cpu_control R345). -/
def execNop (s : State) : Outcome := done 4 s

/-- `HALT` (44_cpu_control R346). -/
def execHalt (s : State) : Outcome := done 4 { s with ctl := { s.ctl with halt := true } }

/-- `EI` (44_cpu_control R347). -/
def execEi (s : State) : Outcome :=
  let s := setIff true s
  done 4 { s with ctl := { s.ctl with eiBlock := true } }

/-- `DI` (44_cpu_control R348). -/
def execDi (s : State) : Outcome := done 4 (setIff false s)

/-- `IM 0` (44_cpu_control R349). -/
def execIm0 (s : State) : Outcome := done 8 (setIm .im0 s)

/-- `IM 1` (44_cpu_control R349). -/
def execIm1 (s : State) : Outcome := done 8 (setIm .im1 s)

/-- `IM 2` (44_cpu_control R349). -/
def execIm2 (s : State) : Outcome := done 8 (setIm .im2 s)

/-- `NEG (copy)` (44_cpu_control R350). -/
def execNegCopy (_y : BitVec 3) (s : State) : Outcome := done 8 (negate s)

/-- `RETN (copy)` (44_cpu_control R350). -/
def execRetnCopy (_y : BitVec 3) (s : State) : Outcome := (returnFromInterrupt s).finish 14

/-- `IM 0 (copy)` (44_cpu_control R350). -/
def execIm0Copy (_y : BitVec 3) (s : State) : Outcome := done 8 (setIm .im0 s)

/-- `IM 1 (copy)` (44_cpu_control R350). -/
def execIm1Copy (s : State) : Outcome := done 8 (setIm .im1 s)

/-- `IM 2 (copy)` (44_cpu_control R350). -/
def execIm2Copy (s : State) : Outcome := done 8 (setIm .im2 s)

/-- `NOP (ED 77, ED 7F)` (44_cpu_control R350). -/
def execNopEd7 (_x : BitVec 1) (s : State) : Outcome := done 8 s

/-- `NOP (ED 00 to ED 3F)` (44_cpu_control R350). -/
def execNopEdLow (_x : BitVec 6) (s : State) : Outcome := done 8 s

/-- `NOP (ED C0 to ED FF)` (44_cpu_control R350). -/
def execNopEdHigh (_x : BitVec 6) (s : State) : Outcome := done 8 s

/-- `NOP (ED 80 to ED 9F)` (44_cpu_control R350). -/
def execNopEdMid (_x : BitVec 5) (s : State) : Outcome := done 8 s

/-- `NOP (ED A4 to A7, AC to AF, B4 to B7, BC to BF)` (44_cpu_control R350). -/
def execNopEdBlock (_y : BitVec 2) (_x : BitVec 2) (s : State) : Outcome := done 8 s

end Sys2Proof.Machine
end

