-- ==== Sys2Proof/Machine/Exchange.lean ====
section
/-! DEFINITION. Exchanges, block transfer and block search (42_exchange_block). The number after `done` or `finish` is `T`. -/

namespace Sys2Proof.Machine

/-- `EX (SP),v` for a 16-bit register read by `get`: read both bytes, write both, the high address first; gives the word
read (42_exchange_block R273). -/
def exchangeTop (get : Regs → Word) (s : State) : Res Word :=
  (memRead s.regs.sp s).andThen fun l s =>
    (memRead (s.regs.sp + 1) s).andThen fun h s =>
      (memWrite (s.regs.sp + 1) (hi (get s.regs)) s).andThen fun _ s =>
        (memWrite s.regs.sp (lo (get s.regs)) s).andThen fun _ s => .ok (join h l) s

/-- `HL`, `DE` moved by `step`, `BC` counted down, and the flags of a block transfer of `t` (42_exchange_block R275). -/
def blockLoadEnd (step : Word) (t : Byte) (g : Regs) : Regs :=
  let g' := ((g.setHl (g.hl + step)).setDe (g.de + step)).setBc (g.bc - 1)
  g'.setFlags (blockLoadFlags g'.a t g'.bc g'.flags)

/-- One block transfer; `step` is 1 or -1 (42_exchange_block R275, R277). -/
def blockLoad (step : Word) (s : State) : Res Unit :=
  (memRead s.regs.hl s).andThen fun t s =>
    (memWrite s.regs.de t s).andThen fun _ s => .ok () (onRegs (blockLoadEnd step t) s)

/-- `HL` moved by `step`, `BC` counted down, and the flags of comparing `A` with `t` (42_exchange_block R279). -/
def blockCompareEnd (step : Word) (t : Byte) (g : Regs) : Regs :=
  let g' := (g.setHl (g.hl + step)).setBc (g.bc - 1)
  g'.setFlags (blockCompareFlags g'.a t g'.bc g'.flags)

/-- One block search step (42_exchange_block R279, R281). -/
def blockCompare (step : Word) (s : State) : Res Unit :=
  (memRead s.regs.hl s).andThen fun t s => .ok () (onRegs (blockCompareEnd step t) s)

/-- Run again while `again` holds of the registers: 21 T-states then, else 16 (42_exchange_block R276, R280, R283). -/
def repeatWhile (again : Regs → Bool) (x : Res Unit) : Outcome :=
  (x.andThen fun _ s => .ok (again s.regs) (if again s.regs then repeatInstr s else s)).finishWith fun more =>
    if more then 21 else 16

/-- `BC != 0`. -/
def bcLeft (g : Regs) : Bool := g.bc != 0

/-- `BC != 0 and res != 0`: the search left `Z` clear exactly when `res != 0`. -/
def searchOn (g : Regs) : Bool := g.bc != 0 && !g.flags.z

/-- `EX DE,HL` (42_exchange_block R270). -/
def execExDeHl (s : State) : Outcome := done 4 (onRegs (fun g => (g.setDe g.hl).setHl g.de) s)

/-- `EX AF,AF'` (42_exchange_block R271). -/
def execExAfAf (s : State) : Outcome := done 4 (onRegs (fun g => { g.setAf g.afAlt with afAlt := g.af }) s)

/-- `EXX` (42_exchange_block R272). -/
def execExx (s : State) : Outcome :=
  done 4 (onRegs (fun g =>
    { ((g.setBc g.bcAlt).setDe g.deAlt).setHl g.hlAlt with bcAlt := g.bc, deAlt := g.de, hlAlt := g.hl }) s)

/-- `EX (SP),HL` (42_exchange_block R273). -/
def execExMemSpHl (s : State) : Outcome :=
  ((exchangeTop Regs.hl s).andThen fun v s => .ok () (onRegs (Regs.setHl v) s)).finish 19

/-- `EX (SP),IX` (42_exchange_block R274). -/
def execExMemSpIx (s : State) : Outcome :=
  ((exchangeTop (Regs.getXY .ix) s).andThen fun v s => .ok () (onRegs (Regs.setXY .ix v) s)).finish 23

/-- `EX (SP),IY` (42_exchange_block R274). -/
def execExMemSpIy (s : State) : Outcome :=
  ((exchangeTop (Regs.getXY .iy) s).andThen fun v s => .ok () (onRegs (Regs.setXY .iy v) s)).finish 23

/-- `LDI` (42_exchange_block R275). -/
def execLdi (s : State) : Outcome := (blockLoad 1 s).finish 16

/-- `LDIR` (42_exchange_block R276). -/
def execLdir (s : State) : Outcome := repeatWhile bcLeft (blockLoad 1 s)

/-- `LDD` (42_exchange_block R277). -/
def execLdd (s : State) : Outcome := (blockLoad (-1) s).finish 16

/-- `LDDR` (42_exchange_block R278). -/
def execLddr (s : State) : Outcome := repeatWhile bcLeft (blockLoad (-1) s)

/-- `CPI` (42_exchange_block R279). -/
def execCpi (s : State) : Outcome := (blockCompare 1 s).finish 16

/-- `CPIR` (42_exchange_block R280). -/
def execCpir (s : State) : Outcome := repeatWhile searchOn (blockCompare 1 s)

/-- `CPD` (42_exchange_block R281). -/
def execCpd (s : State) : Outcome := (blockCompare (-1) s).finish 16

/-- `CPDR` (42_exchange_block R282). -/
def execCpdr (s : State) : Outcome := repeatWhile searchOn (blockCompare (-1) s)

end Sys2Proof.Machine
end

