-- ==== Sys2Proof/Machine/Io.lean ====
section
/-! DEFINITION. Input and output (49_io). The number after `done` or `finish` is `T`. -/

namespace Sys2Proof.Machine

/-- `IN r,(C)` and `IN F,(C)`: the byte and its flags (49_io R481, R492). -/
def portInFlags (s : State) : Res Byte :=
  (portIn s.regs.c s).andThen fun v s => .ok v (setFlags (parityFlags v s.regs.flags) s)

/-- The flags of a block transfer with a port, after `B` was counted down (49_io R493). That they are written last, `Z` from
`B` as it then is, is the model's choice (log 34). -/
def blockIoEnd (s : State) : State :=
  let free := drawFree s
  setFlags (blockIoFlags s.regs.b free.1) free.2

/-- One block input; `step` is 1 or -1 (49_io R482, R484). -/
def blockIn (step : Word) (s : State) : Res Unit :=
  (portIn s.regs.c s).andThen fun v s =>
    (memWrite s.regs.hl v s).andThen fun _ s =>
      .ok () (blockIoEnd (onRegs (fun g => { g.setHl (g.hl + step) with b := g.b - 1 }) s))

/-- One block output: `B` is counted down before the port, `HL` moves after it (49_io R488, R490). `F` is written last, with
`Z` from `B` as the device left it (log 34). -/
def blockOut (step : Word) (s : State) : Res Unit :=
  (memRead s.regs.hl s).andThen fun v s =>
    let s := onRegs (fun g => { g with b := g.b - 1 }) s
    (portOut s.regs.c v s).andThen fun _ s => .ok () (blockIoEnd (onRegs (fun g => g.setHl (g.hl + step)) s))

/-- `B != 0`. -/
def bLeft (g : Regs) : Bool := g.b != 0

/-- `IN A,(n)` (49_io R480). -/
def execInAN (n : Byte) (s : State) : Outcome :=
  ((portIn n s).andThen fun v s => .ok () (onRegs (Regs.set8 .a v) s)).finish 11

/-- `IN r,(C)` (49_io R481). -/
def execInRC (r : Reg8) (s : State) : Outcome :=
  ((portInFlags s).andThen fun v s => .ok () (onRegs (Regs.set8 r v) s)).finish 12

/-- `INI` (49_io R482). -/
def execIni (s : State) : Outcome := (blockIn 1 s).finish 16

/-- `INIR` (49_io R483). -/
def execInir (s : State) : Outcome := repeatWhile bLeft (blockIn 1 s)

/-- `IND` (49_io R484). -/
def execInd (s : State) : Outcome := (blockIn (-1) s).finish 16

/-- `INDR` (49_io R485). -/
def execIndr (s : State) : Outcome := repeatWhile bLeft (blockIn (-1) s)

/-- `OUT (n),A` (49_io R486). -/
def execOutNA (n : Byte) (s : State) : Outcome := (portOut n s.regs.a s).finish 11

/-- `OUT (C),r` (49_io R487). -/
def execOutCR (r : Reg8) (s : State) : Outcome := (portOut s.regs.c (s.regs.get8 r) s).finish 12

/-- `OUTI` (49_io R488). -/
def execOuti (s : State) : Outcome := (blockOut 1 s).finish 16

/-- `OTIR` (49_io R489). -/
def execOtir (s : State) : Outcome := repeatWhile bLeft (blockOut 1 s)

/-- `OUTD` (49_io R490). -/
def execOutd (s : State) : Outcome := (blockOut (-1) s).finish 16

/-- `OTDR` (49_io R491). -/
def execOtdr (s : State) : Outcome := repeatWhile bLeft (blockOut (-1) s)

/-- `IN F,(C)` (49_io R492). -/
def execInFC (s : State) : Outcome := (portInFlags s).finish 12

/-- `OUT (C),0` (49_io R492). -/
def execOutC0 (s : State) : Outcome := (portOut s.regs.c 0 s).finish 12

end Sys2Proof.Machine
end

