-- ==== Sys2Proof/Machine/Jump.lean ====
section
/-! DEFINITION. Jumps, calls, returns and restarts (48_jump_call_return). The number after `done` or `finish` is `T`. -/

namespace Sys2Proof.Machine

/-- A relative jump on a condition: 12 T-states taken, 7 not (48_jump_call_return R453). -/
def jumpIf (taken : Bool) (e : Byte) (s : State) : Outcome :=
  if taken then done 12 (relJump e s) else done 7 s

/-- `JP nn` (48_jump_call_return R450). -/
def execJpNn (nn : Word) (s : State) : Outcome := done 10 (setPc nn s)

/-- `JP cc,nn` (48_jump_call_return R451). -/
def execJpCcNn (cc : Cond) (nn : Word) (s : State) : Outcome :=
  done 10 (if condHolds cc s.regs.f then setPc nn s else s)

/-- `JR e` (48_jump_call_return R452). -/
def execJr (e : Byte) (s : State) : Outcome := done 12 (relJump e s)

/-- `JR NZ,e` (48_jump_call_return R456). -/
def execJrNz (e : Byte) (s : State) : Outcome := jumpIf (condHolds .nz s.regs.f) e s

/-- `JR Z,e` (48_jump_call_return R455). -/
def execJrZ (e : Byte) (s : State) : Outcome := jumpIf (condHolds .z s.regs.f) e s

/-- `JR NC,e` (48_jump_call_return R454). -/
def execJrNc (e : Byte) (s : State) : Outcome := jumpIf (condHolds .nc s.regs.f) e s

/-- `JR C,e` (48_jump_call_return R453). -/
def execJrC (e : Byte) (s : State) : Outcome := jumpIf (condHolds .c s.regs.f) e s

/-- `JP (HL)` (48_jump_call_return R457). -/
def execJpMemHl (s : State) : Outcome := done 4 (setPc s.regs.hl s)

/-- `JP (IX)` (48_jump_call_return R458). -/
def execJpMemIx (s : State) : Outcome := done 8 (setPc (s.regs.getXY .ix) s)

/-- `JP (IY)` (48_jump_call_return R458). -/
def execJpMemIy (s : State) : Outcome := done 8 (setPc (s.regs.getXY .iy) s)

/-- `DJNZ e` (48_jump_call_return R459). -/
def execDjnz (e : Byte) (s : State) : Outcome :=
  let s := onRegs (fun g => { g with b := g.b - 1 }) s
  if s.regs.b != 0 then done 13 (relJump e s) else done 8 s

/-- `CALL nn` (48_jump_call_return R460). -/
def execCallNn (nn : Word) (s : State) : Outcome := (callTo nn s).finish 17

/-- `CALL cc,nn` (48_jump_call_return R461). -/
def execCallCcNn (cc : Cond) (nn : Word) (s : State) : Outcome :=
  if condHolds cc s.regs.f then (callTo nn s).finish 17 else done 10 s

/-- `RET` (48_jump_call_return R462). -/
def execRet (s : State) : Outcome := (returnTo s).finish 10

/-- `RET cc` (48_jump_call_return R463). -/
def execRetCc (cc : Cond) (s : State) : Outcome := if condHolds cc s.regs.f then (returnTo s).finish 11 else done 5 s

/-- `RETI` (48_jump_call_return R468). -/
def execReti (s : State) : Outcome := (returnFromInterrupt s).finish 14

/-- `RETN` (48_jump_call_return R469). -/
def execRetn (s : State) : Outcome := (returnFromInterrupt s).finish 14

/-- `RST t*8` (48_jump_call_return R470). -/
def execRst (t : BitVec 3) (s : State) : Outcome := (callTo (t.setWidth 16 <<< 3) s).finish 11

end Sys2Proof.Machine
end

