-- ==== Sys2Proof/Machine/Load8.lean ====
section
/-! DEFINITION. The 8-bit load group (40_load8). The number after `done` or `finish` is `T`. -/

namespace Sys2Proof.Machine

/-- Read a byte into a register. -/
def loadFrom (a : Word) (k : Byte → Regs → Regs) (s : State) : Res Unit :=
  (memRead a s).andThen fun v s => .ok () (onRegs (k v) s)

/-- `A <- v` with the flags of `LD A,I` (40_load8 R217). -/
def loadSpecial (v : Byte) (s : State) : State :=
  setAccFlags (v, loadSpecialFlags v s.regs.iff2 s.regs.flags) s

/-- `LD r,r'` (40_load8 R201). -/
def execLdRR (r src : Reg8) (s : State) : Outcome := done 4 (onRegs (fun g => g.set8 r (g.get8 src)) s)

/-- `LD r,n` (40_load8 R202). -/
def execLdRN (r : Reg8) (n : Byte) (s : State) : Outcome := done 7 (onRegs (Regs.set8 r n) s)

/-- `LD r,(HL)` (40_load8 R203). -/
def execLdRMemHl (r : Reg8) (s : State) : Outcome := (loadFrom s.regs.hl (Regs.set8 r) s).finish 7

/-- `LD r,(IX+d)` (40_load8 R204). -/
def execLdRMemIx (r : Reg8) (d : Byte) (s : State) : Outcome :=
  (loadFrom (indexAddr .ix d s) (Regs.set8 r) s).finish 19

/-- `LD r,(IY+d)` (40_load8 R204). -/
def execLdRMemIy (r : Reg8) (d : Byte) (s : State) : Outcome :=
  (loadFrom (indexAddr .iy d s) (Regs.set8 r) s).finish 19

/-- `LD (HL),r` (40_load8 R205). -/
def execLdMemHlR (r : Reg8) (s : State) : Outcome := (memWrite s.regs.hl (s.regs.get8 r) s).finish 7

/-- `LD (IX+d),r` (40_load8 R206). -/
def execLdMemIxR (d : Byte) (r : Reg8) (s : State) : Outcome :=
  (memWrite (indexAddr .ix d s) (s.regs.get8 r) s).finish 19

/-- `LD (IY+d),r` (40_load8 R206). -/
def execLdMemIyR (d : Byte) (r : Reg8) (s : State) : Outcome :=
  (memWrite (indexAddr .iy d s) (s.regs.get8 r) s).finish 19

/-- `LD (HL),n` (40_load8 R207). -/
def execLdMemHlN (n : Byte) (s : State) : Outcome := (memWrite s.regs.hl n s).finish 10

/-- `LD (IX+d),n` (40_load8 R208). -/
def execLdMemIxN (d : Byte) (n : Byte) (s : State) : Outcome := (memWrite (indexAddr .ix d s) n s).finish 19

/-- `LD (IY+d),n` (40_load8 R208). -/
def execLdMemIyN (d : Byte) (n : Byte) (s : State) : Outcome := (memWrite (indexAddr .iy d s) n s).finish 19

/-- `LD A,(BC)` (40_load8 R209). -/
def execLdAMemBc (s : State) : Outcome := (loadFrom s.regs.bc (Regs.set8 .a) s).finish 7

/-- `LD A,(DE)` (40_load8 R210). -/
def execLdAMemDe (s : State) : Outcome := (loadFrom s.regs.de (Regs.set8 .a) s).finish 7

/-- `LD A,(nn)` (40_load8 R211). -/
def execLdAMemNn (nn : Word) (s : State) : Outcome := (loadFrom nn (Regs.set8 .a) s).finish 13

/-- `LD (BC),A` (40_load8 R212). -/
def execLdMemBcA (s : State) : Outcome := (memWrite s.regs.bc s.regs.a s).finish 7

/-- `LD (DE),A` (40_load8 R213). -/
def execLdMemDeA (s : State) : Outcome := (memWrite s.regs.de s.regs.a s).finish 7

/-- `LD (nn),A` (40_load8 R214). -/
def execLdMemNnA (nn : Word) (s : State) : Outcome := (memWrite nn s.regs.a s).finish 13

/-- `LD p,p' (p = IXH or IXL; p' = B, C, D, E, IXH, IXL, A)` (40_load8 R215). -/
def execLdIxHalfP (h : Half) (p : Reg8) (s : State) : Outcome :=
  done 8 (onRegs (fun g => g.setHalf .ix h (g.getUnderPrefix .ix p)) s)

/-- `LD p,p' (p = B, C, D, E, A; p' = IXH or IXL)` (40_load8 R215). -/
def execLdPIxHalf (p : Reg8) (h : Half) (s : State) : Outcome :=
  done 8 (onRegs (fun g => g.setUnderPrefix .ix p (g.getHalf .ix h)) s)

/-- `LD IXH,n` (40_load8 R216). -/
def execLdIxhN (n : Byte) (s : State) : Outcome := done 11 (onRegs (Regs.setHalf .ix .hi n) s)

/-- `LD IXL,n` (40_load8 R216). -/
def execLdIxlN (n : Byte) (s : State) : Outcome := done 11 (onRegs (Regs.setHalf .ix .lo n) s)

/-- `LD p,p' (p = IYH or IYL; p' = B, C, D, E, IYH, IYL, A)` (40_load8 R215). -/
def execLdIyHalfP (h : Half) (p : Reg8) (s : State) : Outcome :=
  done 8 (onRegs (fun g => g.setHalf .iy h (g.getUnderPrefix .iy p)) s)

/-- `LD p,p' (p = B, C, D, E, A; p' = IYH or IYL)` (40_load8 R215). -/
def execLdPIyHalf (p : Reg8) (h : Half) (s : State) : Outcome :=
  done 8 (onRegs (fun g => g.setUnderPrefix .iy p (g.getHalf .iy h)) s)

/-- `LD IYH,n` (40_load8 R216). -/
def execLdIyhN (n : Byte) (s : State) : Outcome := done 11 (onRegs (Regs.setHalf .iy .hi n) s)

/-- `LD IYL,n` (40_load8 R216). -/
def execLdIylN (n : Byte) (s : State) : Outcome := done 11 (onRegs (Regs.setHalf .iy .lo n) s)

/-- `LD A,I` (40_load8 R217). -/
def execLdAI (s : State) : Outcome := done 9 (loadSpecial s.regs.i s)

/-- `LD A,R` (40_load8 R218). -/
def execLdARegR (s : State) : Outcome := done 9 (loadSpecial s.regs.r s)

/-- `LD I,A` (40_load8 R219). -/
def execLdIA (s : State) : Outcome := done 9 (onRegs (fun g => { g with i := g.a }) s)

/-- `LD R,A` (40_load8 R220). -/
def execLdRegRA (s : State) : Outcome := done 9 (onRegs (fun g => { g with r := g.a }) s)

end Sys2Proof.Machine
end

