-- ==== Sys2Proof/Machine/Load16.lean ====
section
/-! DEFINITION. The 16-bit load group, PUSH and POP (41_load16). The number after `done` or `finish` is `T`. -/

namespace Sys2Proof.Machine

/-- Read a word, low byte first, into a 16-bit register. -/
def loadWordFrom (a : Word) (k : Word → Regs → Regs) (s : State) : Res Unit :=
  (memRead16 a s).andThen fun v s => .ok () (onRegs (k v) s)

/-- Read `L` at `nn`, then `H` at `nn + 1`, each written as it is read (41_load16 R243). -/
def loadHlFrom (nn : Word) (s : State) : Res Unit :=
  (loadFrom nn (Regs.set8 .l) s).andThen fun _ s => loadFrom (nn + 1) (Regs.set8 .h) s

/-- Write `L` at `nn`, then `H` at `nn + 1` (41_load16 R246). -/
def storeHlTo (nn : Word) (s : State) : Res Unit :=
  (memWrite nn s.regs.l s).andThen fun _ s => memWrite (nn + 1) s.regs.h s

/-- Pop a word into a 16-bit register. -/
def popInto (k : Word → Regs → Regs) (s : State) : Res Unit :=
  (pop16 s).andThen fun v s => .ok () (onRegs (k v) s)

/-- `LD dd,nn` (41_load16 R241). -/
def execLdDdNn (p : Pair) (nn : Word) (s : State) : Outcome := done 10 (onRegs (Regs.setPair p nn) s)

/-- `LD HL,nn` (41_load16 R241). -/
def execLdHlNn (nn : Word) (s : State) : Outcome := done 10 (onRegs (Regs.setHl nn) s)

/-- `LD IX,nn` (41_load16 R242). -/
def execLdIxNn (nn : Word) (s : State) : Outcome := done 14 (onRegs (Regs.setXY .ix nn) s)

/-- `LD IY,nn` (41_load16 R242). -/
def execLdIyNn (nn : Word) (s : State) : Outcome := done 14 (onRegs (Regs.setXY .iy nn) s)

/-- `LD HL,(nn)` (41_load16 R243). -/
def execLdHlMemNn (nn : Word) (s : State) : Outcome := (loadHlFrom nn s).finish 16

/-- `LD dd,(nn)` (41_load16 R244). -/
def execLdDdMemNn (p : Pair) (nn : Word) (s : State) : Outcome := (loadWordFrom nn (Regs.setPair p) s).finish 20

/-- `LD IX,(nn)` (41_load16 R245). -/
def execLdIxMemNn (nn : Word) (s : State) : Outcome := (loadWordFrom nn (Regs.setXY .ix) s).finish 20

/-- `LD IY,(nn)` (41_load16 R245). -/
def execLdIyMemNn (nn : Word) (s : State) : Outcome := (loadWordFrom nn (Regs.setXY .iy) s).finish 20

/-- `LD (nn),HL` (41_load16 R246). -/
def execLdMemNnHl (nn : Word) (s : State) : Outcome := (storeHlTo nn s).finish 16

/-- `LD (nn),dd` (41_load16 R247). -/
def execLdMemNnDd (nn : Word) (p : Pair) (s : State) : Outcome := (memWrite16 nn (s.regs.getPair p) s).finish 20

/-- `LD (nn),IX` (41_load16 R248). -/
def execLdMemNnIx (nn : Word) (s : State) : Outcome := (memWrite16 nn (s.regs.getXY .ix) s).finish 20

/-- `LD (nn),IY` (41_load16 R248). -/
def execLdMemNnIy (nn : Word) (s : State) : Outcome := (memWrite16 nn (s.regs.getXY .iy) s).finish 20

/-- `LD SP,HL` (41_load16 R249). -/
def execLdSpHl (s : State) : Outcome := done 6 (setSp s.regs.hl s)

/-- `LD SP,IX` (41_load16 R250). -/
def execLdSpIx (s : State) : Outcome := done 10 (setSp (s.regs.getXY .ix) s)

/-- `LD SP,IY` (41_load16 R250). -/
def execLdSpIy (s : State) : Outcome := done 10 (setSp (s.regs.getXY .iy) s)

/-- `PUSH qq` (41_load16 R251). -/
def execPushQq (q : QPair) (s : State) : Outcome := (push16 (s.regs.getQPair q) s).finish 11

/-- `PUSH HL` (41_load16 R251). -/
def execPushHl (s : State) : Outcome := (push16 s.regs.hl s).finish 11

/-- `PUSH IX` (41_load16 R252). -/
def execPushIx (s : State) : Outcome := (push16 (s.regs.getXY .ix) s).finish 15

/-- `PUSH IY` (41_load16 R252). -/
def execPushIy (s : State) : Outcome := (push16 (s.regs.getXY .iy) s).finish 15

/-- `POP qq` (41_load16 R253). -/
def execPopQq (q : QPair) (s : State) : Outcome := (popInto (Regs.setQPair q) s).finish 10

/-- `POP HL` (41_load16 R253). -/
def execPopHl (s : State) : Outcome := (popInto Regs.setHl s).finish 10

/-- `POP IX` (41_load16 R254). -/
def execPopIx (s : State) : Outcome := (popInto (Regs.setXY .ix) s).finish 14

/-- `POP IY` (41_load16 R254). -/
def execPopIy (s : State) : Outcome := (popInto (Regs.setXY .iy) s).finish 14

end Sys2Proof.Machine
end

