-- ==== Sys2Proof/Machine/Prefixes.lean ====
section
/-! DEFINITION. The rows of status `prefix`: what a prefix byte does before the next byte is fetched (30_encoding R157). The
T-states of a prefix are in the total of the form it selects, or added by the pipeline where it is redundant (log 17). -/

namespace Sys2Proof.Machine

/-- `prefix <- p` (10_state R27). -/
def setPfx (p : Pfx) (s : State) : State := { s with ctl := { s.ctl with pfx := p } }

/-- `prefix DD (IX)` (30_encoding R157). -/
def execPrefixDd (s : State) : Outcome := .next (setPfx .dd s)

/-- `prefix FD (IY)` (30_encoding R157). -/
def execPrefixFd (s : State) : Outcome := .next (setPfx .fd s)

/-- `prefix ED (selects the ED table; drops a DD or FD before it)` (30_encoding R157). -/
def execPrefixEd (s : State) : Outcome := .next (setPfx .none s)

/-- `prefix CB (selects the CB table)` (30_encoding R157). -/
def execPrefixCb (s : State) : Outcome := .next s

/-- `prefix CB under DD or FD (selects the indexed-CB table)` (30_encoding R157). -/
def execPrefixXyCb (s : State) : Outcome := .next s

end Sys2Proof.Machine
end

