-- ==== Sys2Proof/Machine/Dispatch.lean ====
section
/-! DEFINITION. Which meaning an instruction has: one arm per constructor of `Instr`. -/

namespace Sys2Proof.Machine

/-- The effect of an instruction whose bytes have all been fetched. -/
def exec (i : Instr) (s : State) : Host.Outcome State Fault Refusal :=
  match i with
  | .nop => Sys2Proof.Machine.execNop s
  | .exAfAf => Sys2Proof.Machine.execExAfAf s
  | .djnz e => Sys2Proof.Machine.execDjnz e s
  | .jr e => Sys2Proof.Machine.execJr e s
  | .jrNz e => Sys2Proof.Machine.execJrNz e s
  | .jrZ e => Sys2Proof.Machine.execJrZ e s
  | .jrNc e => Sys2Proof.Machine.execJrNc e s
  | .jrC e => Sys2Proof.Machine.execJrC e s
  | .ldDdNn p nn => Sys2Proof.Machine.execLdDdNn p nn s
  | .ldHlNn nn => Sys2Proof.Machine.execLdHlNn nn s
  | .ldIxNn nn => Sys2Proof.Machine.execLdIxNn nn s
  | .ldIyNn nn => Sys2Proof.Machine.execLdIyNn nn s
  | .addHlSs p => Sys2Proof.Machine.execAddHlSs p s
  | .addIxPp p => Sys2Proof.Machine.execAddIxPp p s
  | .addIyRr p => Sys2Proof.Machine.execAddIyRr p s
  | .ldMemBcA => Sys2Proof.Machine.execLdMemBcA s
  | .ldMemDeA => Sys2Proof.Machine.execLdMemDeA s
  | .ldMemNnHl nn => Sys2Proof.Machine.execLdMemNnHl nn s
  | .ldMemNnIx nn => Sys2Proof.Machine.execLdMemNnIx nn s
  | .ldMemNnIy nn => Sys2Proof.Machine.execLdMemNnIy nn s
  | .ldMemNnA nn => Sys2Proof.Machine.execLdMemNnA nn s
  | .ldAMemBc => Sys2Proof.Machine.execLdAMemBc s
  | .ldAMemDe => Sys2Proof.Machine.execLdAMemDe s
  | .ldHlMemNn nn => Sys2Proof.Machine.execLdHlMemNn nn s
  | .ldIxMemNn nn => Sys2Proof.Machine.execLdIxMemNn nn s
  | .ldIyMemNn nn => Sys2Proof.Machine.execLdIyMemNn nn s
  | .ldAMemNn nn => Sys2Proof.Machine.execLdAMemNn nn s
  | .incSs p => Sys2Proof.Machine.execIncSs p s
  | .incHl => Sys2Proof.Machine.execIncHl s
  | .incIx => Sys2Proof.Machine.execIncIx s
  | .incIy => Sys2Proof.Machine.execIncIy s
  | .decSs p => Sys2Proof.Machine.execDecSs p s
  | .decHl => Sys2Proof.Machine.execDecHl s
  | .decIx => Sys2Proof.Machine.execDecIx s
  | .decIy => Sys2Proof.Machine.execDecIy s
  | .incR r => Sys2Proof.Machine.execIncR r s
  | .incIxh => Sys2Proof.Machine.execIncIxh s
  | .incIxl => Sys2Proof.Machine.execIncIxl s
  | .incIyh => Sys2Proof.Machine.execIncIyh s
  | .incIyl => Sys2Proof.Machine.execIncIyl s
  | .incMemHl => Sys2Proof.Machine.execIncMemHl s
  | .incMemIx d => Sys2Proof.Machine.execIncMemIx d s
  | .incMemIy d => Sys2Proof.Machine.execIncMemIy d s
  | .decR r => Sys2Proof.Machine.execDecR r s
  | .decIxh => Sys2Proof.Machine.execDecIxh s
  | .decIxl => Sys2Proof.Machine.execDecIxl s
  | .decIyh => Sys2Proof.Machine.execDecIyh s
  | .decIyl => Sys2Proof.Machine.execDecIyl s
  | .decMemHl => Sys2Proof.Machine.execDecMemHl s
  | .decMemIx d => Sys2Proof.Machine.execDecMemIx d s
  | .decMemIy d => Sys2Proof.Machine.execDecMemIy d s
  | .ldRN r n => Sys2Proof.Machine.execLdRN r n s
  | .ldIxhN n => Sys2Proof.Machine.execLdIxhN n s
  | .ldIxlN n => Sys2Proof.Machine.execLdIxlN n s
  | .ldIyhN n => Sys2Proof.Machine.execLdIyhN n s
  | .ldIylN n => Sys2Proof.Machine.execLdIylN n s
  | .ldMemHlN n => Sys2Proof.Machine.execLdMemHlN n s
  | .ldMemIxN d n => Sys2Proof.Machine.execLdMemIxN d n s
  | .ldMemIyN d n => Sys2Proof.Machine.execLdMemIyN d n s
  | .rlca => Sys2Proof.Machine.execRlca s
  | .rrca => Sys2Proof.Machine.execRrca s
  | .rla => Sys2Proof.Machine.execRla s
  | .rra => Sys2Proof.Machine.execRra s
  | .daa => Sys2Proof.Machine.execDaa s
  | .cpl => Sys2Proof.Machine.execCpl s
  | .scf => Sys2Proof.Machine.execScf s
  | .ccf => Sys2Proof.Machine.execCcf s
  | .ldRR r src => Sys2Proof.Machine.execLdRR r src s
  | .ldIxHalfP h p => Sys2Proof.Machine.execLdIxHalfP h p s
  | .ldPIxHalf p h => Sys2Proof.Machine.execLdPIxHalf p h s
  | .ldIyHalfP h p => Sys2Proof.Machine.execLdIyHalfP h p s
  | .ldPIyHalf p h => Sys2Proof.Machine.execLdPIyHalf p h s
  | .ldRMemHl r => Sys2Proof.Machine.execLdRMemHl r s
  | .ldRMemIx r d => Sys2Proof.Machine.execLdRMemIx r d s
  | .ldRMemIy r d => Sys2Proof.Machine.execLdRMemIy r d s
  | .ldMemHlR r => Sys2Proof.Machine.execLdMemHlR r s
  | .ldMemIxR d r => Sys2Proof.Machine.execLdMemIxR d r s
  | .ldMemIyR d r => Sys2Proof.Machine.execLdMemIyR d r s
  | .halt => Sys2Proof.Machine.execHalt s
  | .addAR r => Sys2Proof.Machine.execAddAR r s
  | .addAIxh => Sys2Proof.Machine.execAddAIxh s
  | .addAIxl => Sys2Proof.Machine.execAddAIxl s
  | .addAIyh => Sys2Proof.Machine.execAddAIyh s
  | .addAIyl => Sys2Proof.Machine.execAddAIyl s
  | .addAMemHl => Sys2Proof.Machine.execAddAMemHl s
  | .addAMemIx d => Sys2Proof.Machine.execAddAMemIx d s
  | .addAMemIy d => Sys2Proof.Machine.execAddAMemIy d s
  | .addAN n => Sys2Proof.Machine.execAddAN n s
  | .adcAR r => Sys2Proof.Machine.execAdcAR r s
  | .adcAIxh => Sys2Proof.Machine.execAdcAIxh s
  | .adcAIxl => Sys2Proof.Machine.execAdcAIxl s
  | .adcAIyh => Sys2Proof.Machine.execAdcAIyh s
  | .adcAIyl => Sys2Proof.Machine.execAdcAIyl s
  | .adcAMemHl => Sys2Proof.Machine.execAdcAMemHl s
  | .adcAMemIx d => Sys2Proof.Machine.execAdcAMemIx d s
  | .adcAMemIy d => Sys2Proof.Machine.execAdcAMemIy d s
  | .adcAN n => Sys2Proof.Machine.execAdcAN n s
  | .subAR r => Sys2Proof.Machine.execSubAR r s
  | .subAIxh => Sys2Proof.Machine.execSubAIxh s
  | .subAIxl => Sys2Proof.Machine.execSubAIxl s
  | .subAIyh => Sys2Proof.Machine.execSubAIyh s
  | .subAIyl => Sys2Proof.Machine.execSubAIyl s
  | .subAMemHl => Sys2Proof.Machine.execSubAMemHl s
  | .subAMemIx d => Sys2Proof.Machine.execSubAMemIx d s
  | .subAMemIy d => Sys2Proof.Machine.execSubAMemIy d s
  | .subAN n => Sys2Proof.Machine.execSubAN n s
  | .sbcAR r => Sys2Proof.Machine.execSbcAR r s
  | .sbcAIxh => Sys2Proof.Machine.execSbcAIxh s
  | .sbcAIxl => Sys2Proof.Machine.execSbcAIxl s
  | .sbcAIyh => Sys2Proof.Machine.execSbcAIyh s
  | .sbcAIyl => Sys2Proof.Machine.execSbcAIyl s
  | .sbcAMemHl => Sys2Proof.Machine.execSbcAMemHl s
  | .sbcAMemIx d => Sys2Proof.Machine.execSbcAMemIx d s
  | .sbcAMemIy d => Sys2Proof.Machine.execSbcAMemIy d s
  | .sbcAN n => Sys2Proof.Machine.execSbcAN n s
  | .andAR r => Sys2Proof.Machine.execAndAR r s
  | .andAIxh => Sys2Proof.Machine.execAndAIxh s
  | .andAIxl => Sys2Proof.Machine.execAndAIxl s
  | .andAIyh => Sys2Proof.Machine.execAndAIyh s
  | .andAIyl => Sys2Proof.Machine.execAndAIyl s
  | .andAMemHl => Sys2Proof.Machine.execAndAMemHl s
  | .andAMemIx d => Sys2Proof.Machine.execAndAMemIx d s
  | .andAMemIy d => Sys2Proof.Machine.execAndAMemIy d s
  | .andAN n => Sys2Proof.Machine.execAndAN n s
  | .xorAR r => Sys2Proof.Machine.execXorAR r s
  | .xorAIxh => Sys2Proof.Machine.execXorAIxh s
  | .xorAIxl => Sys2Proof.Machine.execXorAIxl s
  | .xorAIyh => Sys2Proof.Machine.execXorAIyh s
  | .xorAIyl => Sys2Proof.Machine.execXorAIyl s
  | .xorAMemHl => Sys2Proof.Machine.execXorAMemHl s
  | .xorAMemIx d => Sys2Proof.Machine.execXorAMemIx d s
  | .xorAMemIy d => Sys2Proof.Machine.execXorAMemIy d s
  | .xorAN n => Sys2Proof.Machine.execXorAN n s
  | .orAR r => Sys2Proof.Machine.execOrAR r s
  | .orAIxh => Sys2Proof.Machine.execOrAIxh s
  | .orAIxl => Sys2Proof.Machine.execOrAIxl s
  | .orAIyh => Sys2Proof.Machine.execOrAIyh s
  | .orAIyl => Sys2Proof.Machine.execOrAIyl s
  | .orAMemHl => Sys2Proof.Machine.execOrAMemHl s
  | .orAMemIx d => Sys2Proof.Machine.execOrAMemIx d s
  | .orAMemIy d => Sys2Proof.Machine.execOrAMemIy d s
  | .orAN n => Sys2Proof.Machine.execOrAN n s
  | .cpAR r => Sys2Proof.Machine.execCpAR r s
  | .cpAIxh => Sys2Proof.Machine.execCpAIxh s
  | .cpAIxl => Sys2Proof.Machine.execCpAIxl s
  | .cpAIyh => Sys2Proof.Machine.execCpAIyh s
  | .cpAIyl => Sys2Proof.Machine.execCpAIyl s
  | .cpAMemHl => Sys2Proof.Machine.execCpAMemHl s
  | .cpAMemIx d => Sys2Proof.Machine.execCpAMemIx d s
  | .cpAMemIy d => Sys2Proof.Machine.execCpAMemIy d s
  | .cpAN n => Sys2Proof.Machine.execCpAN n s
  | .retCc cc => Sys2Proof.Machine.execRetCc cc s
  | .popQq q => Sys2Proof.Machine.execPopQq q s
  | .popHl => Sys2Proof.Machine.execPopHl s
  | .popIx => Sys2Proof.Machine.execPopIx s
  | .popIy => Sys2Proof.Machine.execPopIy s
  | .ret => Sys2Proof.Machine.execRet s
  | .exx => Sys2Proof.Machine.execExx s
  | .jpMemHl => Sys2Proof.Machine.execJpMemHl s
  | .jpMemIx => Sys2Proof.Machine.execJpMemIx s
  | .jpMemIy => Sys2Proof.Machine.execJpMemIy s
  | .ldSpHl => Sys2Proof.Machine.execLdSpHl s
  | .ldSpIx => Sys2Proof.Machine.execLdSpIx s
  | .ldSpIy => Sys2Proof.Machine.execLdSpIy s
  | .jpCcNn cc nn => Sys2Proof.Machine.execJpCcNn cc nn s
  | .jpNn nn => Sys2Proof.Machine.execJpNn nn s
  | .prefixCb => Sys2Proof.Machine.execPrefixCb s
  | .prefixXyCb => Sys2Proof.Machine.execPrefixXyCb s
  | .outNA n => Sys2Proof.Machine.execOutNA n s
  | .inAN n => Sys2Proof.Machine.execInAN n s
  | .exMemSpHl => Sys2Proof.Machine.execExMemSpHl s
  | .exMemSpIx => Sys2Proof.Machine.execExMemSpIx s
  | .exMemSpIy => Sys2Proof.Machine.execExMemSpIy s
  | .exDeHl => Sys2Proof.Machine.execExDeHl s
  | .di => Sys2Proof.Machine.execDi s
  | .ei => Sys2Proof.Machine.execEi s
  | .callCcNn cc nn => Sys2Proof.Machine.execCallCcNn cc nn s
  | .pushQq q => Sys2Proof.Machine.execPushQq q s
  | .pushHl => Sys2Proof.Machine.execPushHl s
  | .pushIx => Sys2Proof.Machine.execPushIx s
  | .pushIy => Sys2Proof.Machine.execPushIy s
  | .callNn nn => Sys2Proof.Machine.execCallNn nn s
  | .prefixDd => Sys2Proof.Machine.execPrefixDd s
  | .prefixEd => Sys2Proof.Machine.execPrefixEd s
  | .prefixFd => Sys2Proof.Machine.execPrefixFd s
  | .rst t => Sys2Proof.Machine.execRst t s
  | .rlcR r => Sys2Proof.Machine.execRlcR r s
  | .rlcMemHl => Sys2Proof.Machine.execRlcMemHl s
  | .rrcR r => Sys2Proof.Machine.execRrcR r s
  | .rrcMemHl => Sys2Proof.Machine.execRrcMemHl s
  | .rlR r => Sys2Proof.Machine.execRlR r s
  | .rlMemHl => Sys2Proof.Machine.execRlMemHl s
  | .rrR r => Sys2Proof.Machine.execRrR r s
  | .rrMemHl => Sys2Proof.Machine.execRrMemHl s
  | .slaR r => Sys2Proof.Machine.execSlaR r s
  | .slaMemHl => Sys2Proof.Machine.execSlaMemHl s
  | .sraR r => Sys2Proof.Machine.execSraR r s
  | .sraMemHl => Sys2Proof.Machine.execSraMemHl s
  | .sllR r => Sys2Proof.Machine.execSllR r s
  | .sllMemHl => Sys2Proof.Machine.execSllMemHl s
  | .srlR r => Sys2Proof.Machine.execSrlR r s
  | .srlMemHl => Sys2Proof.Machine.execSrlMemHl s
  | .bitBR b r => Sys2Proof.Machine.execBitBR b r s
  | .bitBMemHl b => Sys2Proof.Machine.execBitBMemHl b s
  | .resBR b r => Sys2Proof.Machine.execResBR b r s
  | .resBMemHl b => Sys2Proof.Machine.execResBMemHl b s
  | .setBR b r => Sys2Proof.Machine.execSetBR b r s
  | .setBMemHl b => Sys2Proof.Machine.execSetBMemHl b s
  | .rlcMemIx d => Sys2Proof.Machine.execRlcMemIx d s
  | .rlcMemIxR d r => Sys2Proof.Machine.execRlcMemIxR d r s
  | .rrcMemIx d => Sys2Proof.Machine.execRrcMemIx d s
  | .rrcMemIxR d r => Sys2Proof.Machine.execRrcMemIxR d r s
  | .rlMemIx d => Sys2Proof.Machine.execRlMemIx d s
  | .rlMemIxR d r => Sys2Proof.Machine.execRlMemIxR d r s
  | .rrMemIx d => Sys2Proof.Machine.execRrMemIx d s
  | .rrMemIxR d r => Sys2Proof.Machine.execRrMemIxR d r s
  | .slaMemIx d => Sys2Proof.Machine.execSlaMemIx d s
  | .slaMemIxR d r => Sys2Proof.Machine.execSlaMemIxR d r s
  | .sraMemIx d => Sys2Proof.Machine.execSraMemIx d s
  | .sraMemIxR d r => Sys2Proof.Machine.execSraMemIxR d r s
  | .sllMemIx d => Sys2Proof.Machine.execSllMemIx d s
  | .sllMemIxR d r => Sys2Proof.Machine.execSllMemIxR d r s
  | .srlMemIx d => Sys2Proof.Machine.execSrlMemIx d s
  | .srlMemIxR d r => Sys2Proof.Machine.execSrlMemIxR d r s
  | .bitBMemIx b d => Sys2Proof.Machine.execBitBMemIx b d s
  | .bitBMemIxCopy b d z => Sys2Proof.Machine.execBitBMemIxCopy b d z s
  | .resBMemIx b d => Sys2Proof.Machine.execResBMemIx b d s
  | .resBMemIxR b d r => Sys2Proof.Machine.execResBMemIxR b d r s
  | .setBMemIx b d => Sys2Proof.Machine.execSetBMemIx b d s
  | .setBMemIxR b d r => Sys2Proof.Machine.execSetBMemIxR b d r s
  | .rlcMemIy d => Sys2Proof.Machine.execRlcMemIy d s
  | .rlcMemIyR d r => Sys2Proof.Machine.execRlcMemIyR d r s
  | .rrcMemIy d => Sys2Proof.Machine.execRrcMemIy d s
  | .rrcMemIyR d r => Sys2Proof.Machine.execRrcMemIyR d r s
  | .rlMemIy d => Sys2Proof.Machine.execRlMemIy d s
  | .rlMemIyR d r => Sys2Proof.Machine.execRlMemIyR d r s
  | .rrMemIy d => Sys2Proof.Machine.execRrMemIy d s
  | .rrMemIyR d r => Sys2Proof.Machine.execRrMemIyR d r s
  | .slaMemIy d => Sys2Proof.Machine.execSlaMemIy d s
  | .slaMemIyR d r => Sys2Proof.Machine.execSlaMemIyR d r s
  | .sraMemIy d => Sys2Proof.Machine.execSraMemIy d s
  | .sraMemIyR d r => Sys2Proof.Machine.execSraMemIyR d r s
  | .sllMemIy d => Sys2Proof.Machine.execSllMemIy d s
  | .sllMemIyR d r => Sys2Proof.Machine.execSllMemIyR d r s
  | .srlMemIy d => Sys2Proof.Machine.execSrlMemIy d s
  | .srlMemIyR d r => Sys2Proof.Machine.execSrlMemIyR d r s
  | .bitBMemIy b d => Sys2Proof.Machine.execBitBMemIy b d s
  | .bitBMemIyCopy b d z => Sys2Proof.Machine.execBitBMemIyCopy b d z s
  | .resBMemIy b d => Sys2Proof.Machine.execResBMemIy b d s
  | .resBMemIyR b d r => Sys2Proof.Machine.execResBMemIyR b d r s
  | .setBMemIy b d => Sys2Proof.Machine.execSetBMemIy b d s
  | .setBMemIyR b d r => Sys2Proof.Machine.execSetBMemIyR b d r s
  | .inRC r => Sys2Proof.Machine.execInRC r s
  | .inFC => Sys2Proof.Machine.execInFC s
  | .outCR r => Sys2Proof.Machine.execOutCR r s
  | .outC0 => Sys2Proof.Machine.execOutC0 s
  | .sbcHlSs p => Sys2Proof.Machine.execSbcHlSs p s
  | .adcHlSs p => Sys2Proof.Machine.execAdcHlSs p s
  | .ldMemNnDd nn p => Sys2Proof.Machine.execLdMemNnDd nn p s
  | .ldDdMemNn p nn => Sys2Proof.Machine.execLdDdMemNn p nn s
  | .neg => Sys2Proof.Machine.execNeg s
  | .negCopy y => Sys2Proof.Machine.execNegCopy y s
  | .retn => Sys2Proof.Machine.execRetn s
  | .reti => Sys2Proof.Machine.execReti s
  | .retnCopy y => Sys2Proof.Machine.execRetnCopy y s
  | .im0 => Sys2Proof.Machine.execIm0 s
  | .im1 => Sys2Proof.Machine.execIm1 s
  | .im2 => Sys2Proof.Machine.execIm2 s
  | .im0Copy y => Sys2Proof.Machine.execIm0Copy y s
  | .im1Copy => Sys2Proof.Machine.execIm1Copy s
  | .im2Copy => Sys2Proof.Machine.execIm2Copy s
  | .ldIA => Sys2Proof.Machine.execLdIA s
  | .ldRegRA => Sys2Proof.Machine.execLdRegRA s
  | .ldAI => Sys2Proof.Machine.execLdAI s
  | .ldARegR => Sys2Proof.Machine.execLdARegR s
  | .rrd => Sys2Proof.Machine.execRrd s
  | .rld => Sys2Proof.Machine.execRld s
  | .nopEd7 x => Sys2Proof.Machine.execNopEd7 x s
  | .ldi => Sys2Proof.Machine.execLdi s
  | .cpi => Sys2Proof.Machine.execCpi s
  | .ini => Sys2Proof.Machine.execIni s
  | .outi => Sys2Proof.Machine.execOuti s
  | .ldd => Sys2Proof.Machine.execLdd s
  | .cpd => Sys2Proof.Machine.execCpd s
  | .ind => Sys2Proof.Machine.execInd s
  | .outd => Sys2Proof.Machine.execOutd s
  | .ldir => Sys2Proof.Machine.execLdir s
  | .cpir => Sys2Proof.Machine.execCpir s
  | .inir => Sys2Proof.Machine.execInir s
  | .otir => Sys2Proof.Machine.execOtir s
  | .lddr => Sys2Proof.Machine.execLddr s
  | .cpdr => Sys2Proof.Machine.execCpdr s
  | .indr => Sys2Proof.Machine.execIndr s
  | .otdr => Sys2Proof.Machine.execOtdr s
  | .nopEdLow x => Sys2Proof.Machine.execNopEdLow x s
  | .nopEdHigh x => Sys2Proof.Machine.execNopEdHigh x s
  | .nopEdMid x => Sys2Proof.Machine.execNopEdMid x s
  | .nopEdBlock y x => Sys2Proof.Machine.execNopEdBlock y x s

end Sys2Proof.Machine
end

