-- ==== Sys2Proof/Machine/Pipeline.lean ====
section
/-! DEFINITION. The instruction pipeline: opcode fetch, prefix routing, operand fetch, execution, the halted tick, and the
seven lines of one step (30_encoding R150 to R160). -/

namespace Sys2Proof.Machine

/-- `EXEC_RULE(state, pc)` (30_encoding R153, log 4). -/
def execRule (pc : Word) (s : State) : Bool :=
  match s.cfg.execRule with
  | .default => true
  | .uninterpreted k => Config.execRuleOf k s pc

/-- `ExecAllowed(pc)` (30_encoding R153). -/
def execAllowed (pc : Word) (s : State) : Bool := !(slotOf s pc).noExec && execRule pc s

/-- The execute-permission check of an opcode fetch (30_encoding R152 line 1). -/
def checkExec (s : State) : Res Unit :=
  if execAllowed s.regs.pc s then .ok () s else raiseExecViolation s.regs.pc s

/-- `boot_unmap_done <- 1`. -/
def setBootUnmapDone (s : State) : State := { s with mem := { s.mem with bootUnmapDone := true } }

/-- The boot page is still in bank 0 and the fetch is outside it (30_encoding R155). -/
def bootUnmapDue (pc : Word) (s : State) : Bool :=
  !s.mem.bootUnmapDone && s.cfg.modelClass == .flashEra && bankOf pc != 0

/-- `BootUnmapCheck(pc)` (30_encoding R155). -/
def bootUnmapCheck (pc : Word) (s : State) : Res Unit :=
  if bootUnmapDue pc s then (changePage 0 0 false s).andThen fun _ s => .ok () (setBootUnmapDone s)
  else .ok () s

/-- `OpcodeFetch()` (30_encoding R152): `PC` is read again after the check, which may have reset the CPU. -/
def opcodeFetch (s : State) : Res Byte :=
  (checkExec s).andThen fun _ s =>
    (bootUnmapCheck s.regs.pc s).andThen fun _ s =>
      (readByte .fetch s.regs.pc s).andThen fun v s => .ok v (advanceR 1 (setPc (s.regs.pc + 1) s))

/-- `Fetch8()` (30_encoding R154). -/
def fetch8 (s : State) : Res Byte :=
  (memRead s.regs.pc s).andThen fun v s => .ok v (setPc (s.regs.pc + 1) s)

/-- Fetch the operand bytes of a table entry, in stream order (30_encoding R154, log 18). -/
def fetchOperands (entry : Entry) (s : State) : Res Instr :=
  match entry with
  | .done i => .ok i s
  | .take1 k => (fetch8 s).andThen fun b s => .ok (k b) s
  | .take2 k => (fetch8 s).andThen fun b s => (fetch8 s).andThen fun c s => .ok (k b c) s

/-- The effect of a prefix byte (30_encoding R157). -/
def runPrefix (i : Instr) (s : State) : Res Unit := Res.ofOutcome (exec i s)

/-- The prefix routing of an opcode byte after `n` index prefixes, then the operand fetch: the instruction to execute
and how many index prefixes it had (30_encoding R157). The first argument bounds the bytes routed (70_reset R632). That
`IX` or `IY` is settled by `prefix` as it is before the operand fetch, whatever a hook inside a fetch does to `prefix`, is
the model's choice (log 33). -/
def routeFrom : Nat → Nat → Byte → State → Res (Instr × Nat)
  | 0, _, _, _ => .refused .prefixRunTooLong
  | fuel + 1, n, op, s =>
    match routeOf op with
    | .index p =>
      (runPrefix p.instr s).andThen fun _ s => (opcodeFetch s).andThen fun op2 s => routeFrom fuel (n + 1) op2 s
    | .ed =>
      (runPrefix .prefixEd s).andThen fun _ s =>
        (opcodeFetch s).andThen fun op2 s => (fetchOperands (edEntry op2) s).andThen fun i s => .ok (i, n) s
    | .cb =>
      match s.ctl.pfx.index with
      | none =>
        (runPrefix .prefixCb s).andThen fun _ s => (opcodeFetch s).andThen fun op2 s => .ok (cbEntry op2, n) s
      | some x =>
        (runPrefix .prefixXyCb s).andThen fun _ s =>
          (fetch8 s).andThen fun d s => (fetch8 s).andThen fun op2 s => .ok (xycbEntry x d op2, n) s
    | .base => (fetchOperands (baseEntry s.ctl.pfx op) s).andThen fun i s => .ok (i, n) s

/-- The most opcode fetches a run of index prefixes makes (70_reset R632, log 16). -/
def prefixBound : Nat := 65536

/-- `Execute(op)` and the addition of its cost; gives the instruction that ran (30_encoding R157, R175; log 17). `turns`
bounds the bytes routed, `op` among them. That the instruction adds its full total even where a hook set or cleared `prefix`,
and 4 is added for each index prefix routed that the form does not use, is the model's choice (log 33). -/
def execute (turns : Nat) (op : Byte) (s : State) : Res Instr :=
  (routeFrom turns 0 op s).andThen fun r s =>
    (Res.ofOutcome (exec r.1 s)).andThen fun _ s => .ok r.1 (addT (4 * redundantPrefixes r.2 r.1) s)

/-- `ExecuteNoFetch(b)` (30_encoding R160). `b` was not fetched, so it takes none of the fetches that bound a run. -/
def executeNoFetch (b : Byte) (s : State) : Res Unit :=
  (execute (prefixBound + 1) b (setPfx .none s)).andThen fun _ s => .ok () (setPfx .none s)

/-- `HaltedTick()` (30_encoding R151). -/
def haltedTick (s : State) : State := addT s.cfg.haltTstates (advanceR s.cfg.haltRStep s)

/-- Line 1 of the step: `interrupt <- 0; ei_block <- 0` (30_encoding R150). -/
def clearStepFlags (s : State) : State := { s with ctl := { s.ctl with interrupt := false, eiBlock := false } }

/-- Line 4: one instruction, or one halted tick, which runs none. -/
def runInstruction (s : State) : Res (Option Instr) :=
  if s.ctl.halt then .ok none (haltedTick s)
  else
    (opcodeFetch (setPfx .none s)).andThen fun op s =>
      (execute prefixBound op s).andThen fun i s => .ok (some i) (setPfx .none s)

/-- Line 6: deliver an interrupt that was raised and is not blocked. -/
def deliverIfDue (ran : Option Instr) (s : State) : Res Unit :=
  if s.ctl.interrupt && !s.ctl.eiBlock && s.regs.iff1 then deliverInterrupt executeNoFetch ran s else .ok () s

/-- Line 7: attribute the step's T-states if the profiler is enabled. -/
def profileIfEnabled (pc0 : Word) (t0 : Nat) (s : State) : State :=
  if s.dbg.profiling then profileAttribute pc0 (s.timer.tstates - t0) s else s

/-- Lines 5 to 7, after the instruction `ran`. At the end of a step `prefix` is `none`, whatever an agent left there
(10_state R27, R51 (d); log 29). -/
def finishStep (pc0 : Word) (t0 : Nat) (ran : Option Instr) (s : State) : Res Unit :=
  (pollInterrupts s).andThen fun _ s =>
    (deliverIfDue ran s).andThen fun _ s => .ok () (setPfx .none (profileIfEnabled pc0 t0 s))

/-- `Step()` (30_encoding R150). -/
def runStep (s : State) : Res Unit :=
  (runInstruction (historyAppend (clearStepFlags s))).andThen fun ran t =>
    finishStep s.regs.pc s.timer.tstates ran t

/-- The state in which the next opcode byte is read: with the boot page already unmapped if this fetch does that. -/
def fetchView (s : State) : State :=
  if bootUnmapDue s.regs.pc s then { s with mem := { s.mem with normal := s.mem.normal.setSlot 0 (BankSlot.fresh false 0) } }
  else s

/-- Put bytes into the stores where the fetches from `a` on read them, the mapping as in `view`. -/
def placeBytes (view : State) : List Byte → Word → State → State
  | [], _, s => s
  | b :: bs, a, s => placeBytes view bs (a + 1) (storeSet (resolve view a).1 (resolve view a).2 b s)

/-- What an opcode fetch needs to read the stored byte: the CPU runs, and the flash sequencer is in `READ`. -/
def readyToFetch (s : State) : State :=
  { s with ctl := { s.ctl with halt := false }, mem := { s.mem with flashState := .read } }

end Sys2Proof.Machine
end

