-- ==== Sys2Proof/Machine/Step.lean ====
section
/-! DEFINITION. The step of the machine, and how a program's first instruction is placed (log 19). -/

namespace Sys2Proof.Machine

/-- One step: one instruction or halted tick, the interrupt polls, at most one delivery (30_encoding R150). -/
def step (s : State) : Host.Outcome State Fault Refusal := (runStep s).toOutcome

/-- `s` with the instruction of a table word stored where the next step fetches it: the host's image load (70_reset R645),
which writes the stores directly. -/
def State.withFetchWord (s : State) (nbits w : Nat) : State :=
  placeBytes (fetchView s) (tableBytes nbits w) s.regs.pc (readyToFetch s)

end Sys2Proof.Machine
end

