-- ==== Sys2Proof/Machine/Init.lean ====
section
/-! DEFINITION. Construction of a core with given parameters (70_reset R600, R602), and what the host may do to it between
steps (70_reset R645). -/

namespace Sys2Proof.Machine

/-- An interrupt entry at registration: `skip_count = skip_factor` (10_state R44). -/
def IntEntry.registered (value : Byte) (skipFactor : Nat) : IntEntry :=
  { value := value, skipFactor := skipFactor, skipCount := skipFactor }

/-- `init` with the parameters `c`, `DEVICES` and `INT_ENTRIES`, the latter as pairs of a value and a skip factor (70_reset
R602). The CPU and the memory context have no meaning before the first `Reset()`: their values are the model's choice
(log 32). -/
def State.init (c : Config) (devices : List Device) (entries : List (Byte × Nat)) : State where
  regs := Regs.reset
  ctl := Control.reset
  mem :=
    { ram := [], flash := [], marks := [], normal := BankTable.flashEra c.flashPages, view := .normal,
      flashState := .read, flashLocked := true, flashError := false, remap27 := 0, remap28 := 0, bootUnmapDone := false }
  timer := { tstates := 0, elapsed := 0 }
  pio := { devices := devices, intEntries := entries.map fun e => IntEntry.registered e.1 e.2, ioCache := 0 }
  dbg := { history := [], historyIndex := 0, profiling := false, histogram := [] }
  log := []
  free := 0
  cfg := c

/-- `init`, then `Reset()`: a runnable core (70_reset R600). -/
def State.powerOn (c : Config) (devices : List Device) (entries : List (Byte × Nat)) : Outcome :=
  (resetCpu (State.init c devices entries)).toOutcome

/-- An operation of the host on a core (70_reset R645; `clearDevice` by 60_exceptions R550). -/
inductive HostOp where
  | load (isRam : Bool) (addr : Nat) (image : List Byte)
  | reset
  | step
  | setHooks (hooks : Hooks)
  | setDevice (d : Device)
  | removeDevice (port : Byte)
  | clearDevice (port : Byte)
  | addEntry (value : Byte) (skipFactor : Nat)
  | removeEntry (entry : Nat)
  | setMark (m : BreakMark)
  | removeMark (byte : Canon)
  | setProfiling (on : Bool)
  deriving DecidableEq, Repr

/-- Write the bytes of an image to a store from an address on, not through the flash sequencer (70_reset R645). -/
def loadImage (isRam : Bool) : List Byte → Nat → State → Res Unit
  | [], _, s => .ok () s
  | b :: bs, addr, s =>
    (checkStore isRam addr s).andThen fun _ s => loadImage isRam bs (addr + 1) (storeSet isRam addr b s)

/-- The device table becomes `devices`. -/
def setDevices (devices : List Device) (s : State) : State := { s with pio := { s.pio with devices := devices } }

/-- The polling chain becomes `entries`. -/
def setEntries (entries : List IntEntry) (s : State) : State := { s with pio := { s.pio with intEntries := entries } }

/-- What an operation of the host does (70_reset R645; log 22). A device or mark replaces what its port or byte had; an
entry is registered at the end of the chain (60_exceptions R531). -/
def hostDo (op : HostOp) (s : State) : Outcome :=
  match op with
  | .load isRam addr image => (loadImage isRam image addr s).toOutcome
  | .reset => (resetCpu s).toOutcome
  | .step => Sys2Proof.Machine.step s
  | .setHooks hooks => .next { s with cfg := { s.cfg with hooks := hooks } }
  | .setDevice d => .next (setDevices (d :: s.pio.devices.filter fun x => x.port != d.port) s)
  | .removeDevice p => .next (setDevices (s.pio.devices.filter fun x => x.port != p) s)
  | .clearDevice p => .next (setDevices (s.pio.devices.map fun x => if x.port == p then x.clear else x) s)
  | .addEntry v n => .next (setEntries (s.pio.intEntries ++ [IntEntry.registered v n]) s)
  | .removeEntry i => .next (setEntries (s.pio.intEntries.eraseIdx i) s)
  | .setMark m => .next (setMarks (m :: s.mem.marks.filter fun x => x.byte != m.byte) s)
  | .removeMark c => .next (setMarks (s.mem.marks.filter fun x => x.byte != c) s)
  | .setProfiling on => .next { s with dbg := { s.dbg with profiling := on } }

end Sys2Proof.Machine
end

