-- ==== Sys2Proof/Safety.lean ====
section
/-! DEFINITION. What counts as a good state and a plain access, in the terms the statements use: the invariants of
10_state R51, accesses that no agent interferes with, and the effect of an instruction on the whole state. -/

namespace Sys2Proof.Machine

/-- The byte at a CPU address, as the mapping stands. -/
def byteAt (s : State) (a : Word) : Byte := storeGet s (resolve s a).1 (resolve s a).2

/-- The 16-bit quantity at a CPU address, low byte first (20_memory R85). -/
def wordAt (s : State) (a : Word) : Word := join (byteAt s (a + 1)) (byteAt s a)

/-- A read of this address returns the stored byte and calls nobody: the byte exists, the flash-read decoder is not in
the way, and no read-break mark is on it (20_memory R69, R80). -/
def readable (s : State) (a : Word) : Bool :=
  inStore s.cfg (resolve s a).1 (resolve s a).2 && !decodedRead s a &&
    !markedFor (·.onRead) (canonOf (resolve s a).1 (resolve s a).2) s

/-- A write of this address stores its byte in RAM and calls nobody (20_memory R82, R83). -/
def writable (s : State) (a : Word) : Bool :=
  inStore s.cfg (resolve s a).1 (resolve s a).2 && (resolve s a).1 && (inWindow s a || !(slotOf s a).readOnly) &&
    !markedFor (·.onWrite) (canonOf (resolve s a).1 (resolve s a).2) s

/-- A write of this address reaches the flash sequencer or its gate: the byte exists, it is a Flash byte, and no
write-break mark is on it. -/
def flashTarget (s : State) (a : Word) : Bool :=
  inStore s.cfg (resolve s a).1 (resolve s a).2 && !(resolve s a).1 &&
    !markedFor (·.onWrite) (canonOf (resolve s a).1 (resolve s a).2) s

/-- `base_offset = page * 16384` (10_state R32). -/
def BankSlot.wf (b : BankSlot) : Bool := b.baseOffset == b.page.toNat * pageSize

/-- The slot invariant of a bank table (10_state R51 (a)). -/
def BankTable.wf (t : BankTable) : Bool := t.slot0.wf && t.slot1.wf && t.slot2.wf && t.slot3.wf && t.slot4.wf

/-- The invariant of every state a run reaches: both stores canonical, the slot invariant and `IFF1 = IFF2` (10_state
R51), and the ring of 512 history records (R47). -/
def Consistent (s : State) : Bool :=
  s.mem.ram.wf && s.mem.flash.wf && s.mem.normal.wf && s.regs.iff1 == s.regs.iff2 &&
    decide (s.dbg.history.length ≤ 512) && decide (s.dbg.historyIndex < 512)

/-- No step is under way: `prefix = none`, `input = 0`, `output = 0` (10_state R51 (d)). -/
def idle (s : State) : Bool := s.ctl.pfx == .none && !s.ctl.input && !s.ctl.output

/-- The device's behaviour is one this model gives. -/
def DeviceKind.known : DeviceKind → Bool
  | .uninterpreted _ => false
  | _ => true

/-- No agent of unknown behaviour: no hook, and only devices whose behaviour this model gives (00_scope R7's defaults
and the devices of 95_test_vectors). -/
def tame (s : State) : Bool := s.cfg.hooks == Hooks.absent && s.pio.devices.all fun d => d.kind.known

/-- No active device at the port (60_exceptions R524). -/
def emptyPort (s : State) (p : Byte) : Bool :=
  match deviceAt s p with
  | none => true
  | some d => !d.active

/-- The run of a test program ends here: only reset can leave this state (70_reset R646). -/
def runEnded (s : State) : Bool := s.ctl.halt && !s.regs.iff1

/-- What an instruction that went from `s` to `t` did, said of the whole state: the register file is `g`, the bytes `ws`
were stored at their CPU addresses, `T` T-states passed, and nothing else changed but the bus latch and the direction
flags. -/
structure Effect (s t : State) (g : Regs) (ws : List (Word × Byte)) (T : Nat) : Prop where
  regs : t.regs = g
  stored : ∀ w ∈ ws, byteAt t w.1 = w.2
  kept : ∀ isRam addr, (∀ w ∈ ws, resolve s w.1 ≠ (isRam, addr)) → storeGet t isRam addr = storeGet s isRam addr
  mapping : t.mem = { s.mem with ram := t.mem.ram, flash := t.mem.flash }
  control : t.ctl = { s.ctl with bus := t.ctl.bus, read := t.ctl.read, write := t.ctl.write }
  agents : t.pio = s.pio ∧ t.dbg = s.dbg ∧ t.log = s.log
  model : t.free = s.free ∧ t.cfg = s.cfg
  time : s.cfg.timingGate = false → t.timer.tstates = s.timer.tstates + T

/-- `i` completes from `s` with that effect. -/
def completes (i : Instr) (s : State) (g : Regs) (ws : List (Word × Byte)) (T : Nat) : Prop :=
  ∃ t, exec i s = .next t ∧ Effect s t g ws T

/-- `i` completes from `s` as in `completes`, and besides leaves the PIO context `pio` and the output stream `log`, and
draws `n` free values. -/
def completesWith (i : Instr) (s : State) (g : Regs) (ws : List (Word × Byte)) (T : Nat) (pio : Pio)
    (log : List LogLine) (n : Nat) : Prop :=
  ∃ t, exec i s = .next t ∧ t.pio = pio ∧ t.log = log ∧ t.free = s.free + n ∧
    Effect s { t with pio := s.pio, log := s.log, free := s.free } g ws T

/-- The device at the port is the latch of 95_test_vectors, holding `v`, open to every access and
without a breakpoint. -/
def latchAt (s : State) (p v : Byte) : Bool :=
  match deviceAt s p with
  | none => false
  | some d => d.active && !d.protectedPort && !d.breakpoint && d.kind == .latch && d.own == v.toNat

/-- The summary table of the flash sequencer (20_memory R121): the next state of each cell, `none` where it says recovery. -/
def flashTable (version : Nat) (st : FlashState) (a : Word) (v : Byte) : Option FlashState :=
  let atA := a.toNat % 4096 = 0xAAA
  let at5 := a.toNat % 4096 = 0x555
  match st with
  | .read => if v = 0xF0 then some .read else if v = 0xAA ∧ atA then some .aa else none
  | .aa => if v = 0xF0 then some .read else if v = 0x55 ∧ at5 then some .s55 else none
  | .s55 =>
    if v = 0xF0 then some .read
    else if ¬atA then none
    else if v = 0xA0 then some .program
    else if v = 0x80 then some .erase
    else if v = 0x90 then some .autoselect
    else if v = 0x20 ∧ version ≠ 1 then some .fastmode
    else none
  | .program => some .read
  | .erase => if v = 0xF0 then some .read else if v = 0xAA ∧ atA then some .eraseAa else none
  | .eraseAa => if v = 0xF0 then some .read else if v = 0x55 ∧ at5 then some .erase55 else none
  | .erase55 => if v = 0xF0 ∨ v = 0x10 ∨ v = 0x30 then some .read else none
  | .fastmode => if v = 0xA0 then some .fastmodeProg else if v = 0x90 then some .fastmodeExit else none
  | .fastmodeProg => some .fastmode
  | .fastmodeExit => if v = 0xF0 ∨ v = 0x00 then some .read else none
  | .autoselect => if v = 0xF0 then some .read else none
  | .error => if v = 0xF0 then some .read else none

/-- Byte writes by the CPU, one after the other. -/
def writeAll : List (Word × Byte) → State → Res Unit
  | [], s => .ok () s
  | w :: ws, s => (memWrite w.1 w.2 s).andThen fun _ s => writeAll ws s

/-- `n` poll cycles in a row. -/
def pollTimes : Nat → State → Res Unit
  | 0, s => .ok () s
  | n + 1, s => (pollInterrupts s).andThen fun _ s => pollTimes n s

/-- The write goes to the flash sequencer: nothing interferes, and the legality check passes (20_memory R101). -/
def flashWritable (s : State) (a : Word) : Bool :=
  flashTarget s a && flashWriteAllowed s (slotOf s a).page

/-- The instruction may write to memory. -/
def storesMemory (i : Instr) : Bool :=
  match i with
  | .ldMemHlR _ | .ldMemIxR _ _ | .ldMemIyR _ _ | .ldMemHlN _ | .ldMemIxN _ _ | .ldMemIyN _ _ => true
  | .ldMemBcA | .ldMemDeA | .ldMemNnA _ | .ldMemNnHl _ | .ldMemNnDd _ _ | .ldMemNnIx _ | .ldMemNnIy _ => true
  | .pushQq _ | .pushHl | .pushIx | .pushIy | .exMemSpHl | .exMemSpIx | .exMemSpIy => true
  | .ldi | .ldir | .ldd | .lddr | .ini | .inir | .ind | .indr => true
  | .incMemHl | .incMemIx _ | .incMemIy _ | .decMemHl | .decMemIx _ | .decMemIy _ => true
  | .rlcMemHl | .rlcMemIx _ | .rlcMemIxR _ _ | .rlcMemIy _ | .rlcMemIyR _ _ => true
  | .rrcMemHl | .rrcMemIx _ | .rrcMemIxR _ _ | .rrcMemIy _ | .rrcMemIyR _ _ => true
  | .rlMemHl | .rlMemIx _ | .rlMemIxR _ _ | .rlMemIy _ | .rlMemIyR _ _ => true
  | .rrMemHl | .rrMemIx _ | .rrMemIxR _ _ | .rrMemIy _ | .rrMemIyR _ _ => true
  | .slaMemHl | .slaMemIx _ | .slaMemIxR _ _ | .slaMemIy _ | .slaMemIyR _ _ => true
  | .sraMemHl | .sraMemIx _ | .sraMemIxR _ _ | .sraMemIy _ | .sraMemIyR _ _ => true
  | .sllMemHl | .sllMemIx _ | .sllMemIxR _ _ | .sllMemIy _ | .sllMemIyR _ _ => true
  | .srlMemHl | .srlMemIx _ | .srlMemIxR _ _ | .srlMemIy _ | .srlMemIyR _ _ => true
  | .rld | .rrd => true
  | .resBMemHl _ | .resBMemIx _ _ | .resBMemIxR _ _ _ | .resBMemIy _ _ | .resBMemIyR _ _ _ => true
  | .setBMemHl _ | .setBMemIx _ _ | .setBMemIxR _ _ _ | .setBMemIy _ _ | .setBMemIyR _ _ _ => true
  | .callNn _ | .callCcNn _ _ | .rst _ => true
  | _ => false

/-- How many opcode fetches an instruction with `n` index prefix bytes makes; in the indexed-CB forms the displacement and
the last opcode byte are operand reads (30_encoding R157). -/
def opcodeFetches (n : Nat) (i : Instr) : Nat :=
  match encode i with
  | b :: _ => n + (if b == 0xCB || b == 0xED then 2 else 1)
  | [] => n

/-- The prefix state after the index prefixes at the head of a list of bytes. -/
def pfxAfter (p : Pfx) : List Byte → Pfx
  | [] => p
  | b :: bs =>
    match routeOf b with
    | .index q => pfxAfter q bs
    | _ => p

/-- The prefix state in which an instruction executes: the last index prefix, which 0xED drops (30_encoding R157). -/
def execPfx (i : Instr) (bytes : List Byte) : Pfx :=
  if (encode i).head? = some 0xED then .none else pfxAfter .none bytes

/-- The bytes stand at the program counter, and every fetch of them is plain: execution allowed, no boot unmap due, no
interference with the read. -/
def fetchable (s : State) (bytes : List Byte) : Prop :=
  s.ctl.halt = false ∧ s.cfg.timingGate = false ∧
    ∀ k, (hk : k < bytes.length) →
      let a := s.regs.pc + BitVec.ofNat 16 k
      byteAt s a = bytes[k] ∧ readable s a = true ∧ (slotOf s a).noExec = false ∧ s.cfg.execRule = .default ∧
        bootUnmapDue a s = false

/-- The state in which the instruction that these bytes encode begins to execute. -/
def fetched (s : State) (bytes : List Byte) (d : Decoded) : State :=
  let u := historyAppend (clearStepFlags s)
  { u with
    regs := { u.regs with pc := s.regs.pc + BitVec.ofNat 16 bytes.length,
                          r := refreshBy (opcodeFetches d.prefixes d.instr) s.regs.r }
    ctl := { u.ctl with bus := bytes.getLastD 0, read := true, write := false, pfx := execPfx d.instr bytes } }

end Sys2Proof.Machine
end

