-- ==== Sys2Proof/Certificates/Slice0/Obligations.lean ====
section
/-! DEFINITION. The statements for the provers, from the numbered rules of spec/. The terms they use (`completes`, `Effect`,
`readable`, `writable`, `Consistent`, `fetched` and the rest) are defined in Sys2Proof/Safety.lean. -/

section

open Sys2Proof Sys2Proof.Machine

/-- Decode and encode agree: no bit of an encoding is dropped (30_encoding R161 to R172). -/
def Obligations.DecodeEncode : Prop :=
  ∀ (i : Instr) (rest : List Byte), WellFormed i = true → i.isPrefixByte = false →
    decode (encode i ++ rest) = .ok { instr := i, prefixes := i.hasIndexPrefix.toNat, rest := rest }

/-- Each byte string has one meaning: its redundant prefixes (30_encoding R175), then the encoding of the instruction.
-/
def Obligations.EncodeDecode : Prop :=
  ∀ (bytes : List Byte) (d : Decoded), decode bytes = .ok d →
    WellFormed d.instr = true ∧ d.instr.isPrefixByte = false ∧
      ∃ ps : List Byte, (∀ p ∈ ps, p = 0xDD ∨ p = 0xFD) ∧ ps.length = redundantPrefixes d.prefixes d.instr ∧
        bytes = ps ++ encode d.instr ++ d.rest

/-- There is no reserved encoding (30_encoding R174): after any index prefixes, any byte and any three bytes after it
decode. -/
def Obligations.EveryStringDecodes : Prop :=
  ∀ (ps : List Byte) (op b1 b2 b3 : Byte) (rest : List Byte), (∀ p ∈ ps, p = 0xDD ∨ p = 0xFD) → op ≠ 0xDD → op ≠ 0xFD →
    ∃ d, decode (ps ++ op :: b1 :: b2 :: b3 :: rest) = .ok d ∧ WellFormed d.instr = true ∧ d.instr.isPrefixByte = false

/-- Examples of the spec's own encodings (40_load8 to 49_io), and `LDIR` after an index prefix that is dropped
(42_exchange_block R276, 30_encoding R157, R175). -/
def Obligations.SampleWordsDecode : Prop :=
  decode [0xDD, 0x46, 0xFF] = .ok ⟨.ldRMemIx .b 0xFF, 1, []⟩ ∧
  decode [0xDD, 0x36, 0x05, 0xAA] = .ok ⟨.ldMemIxN 0x05 0xAA, 1, []⟩ ∧
  decode [0xED, 0x73, 0x23, 0x81] = .ok ⟨.ldMemNnDd 0x8123 .sp, 0, []⟩ ∧
  decode [0xDD, 0x85] = .ok ⟨.addAIxl, 1, []⟩ ∧
  decode [0xCB, 0x38] = .ok ⟨.srlR .b, 0, []⟩ ∧
  decode [0xDD, 0xCB, 0x03, 0x2E] = .ok ⟨.sraMemIx 0x03, 1, []⟩ ∧
  decode [0xDD, 0xCB, 0x01, 0x00] = .ok ⟨.rlcMemIxR 0x01 .b, 1, []⟩ ∧
  decode [0xFD, 0xCB, 0x14, 0x76] = .ok ⟨.bitBMemIy 6 0x14, 1, []⟩ ∧
  decode [0xCD, 0x00, 0x90] = .ok ⟨.callNn 0x9000, 0, []⟩ ∧
  decode [0xED, 0x78] = .ok ⟨.inRC .a, 0, []⟩ ∧
  decode [0xDD, 0xED, 0xB0] = .ok ⟨.ldir, 1, []⟩

/-- The step of 30_encoding R150 on a fetchable instruction: `fetched` is the state after the fetches (R152, R154,
R157), `finishStep` is lines 5 to 7. The bound on the length is the one of 70_reset R632 (log 16). -/
def Obligations.StepRunsDecodedInstruction : Prop :=
  ∀ (s : State) (bytes : List Byte) (d : Decoded), decode bytes = .ok d → d.rest = [] → bytes.length ≤ 65536 →
    fetchable s bytes →
      step s = ((Res.ofOutcome (exec d.instr (fetched s bytes d))).andThen fun _ t =>
        finishStep s.regs.pc s.timer.tstates (some d.instr)
          (setPfx .none (addT (4 * redundantPrefixes d.prefixes d.instr) t))).toOutcome

/-- The register cell law (10_state R10) for the operand forms of the instructions. -/
def Obligations.RegisterCells : Prop :=
  (∀ (g : Regs) (r q : Reg8) (v : Byte), (g.set8 r v).get8 q = if q = r then v else g.get8 q) ∧
  (∀ (g : Regs) (p : Pair) (v : Word), (g.setPair p v).getPair p = v) ∧
  (∀ (g : Regs) (q : QPair) (v : Word), (g.setQPair q v).getQPair q = v) ∧
  (∀ (g : Regs) (x : Index) (v : Word), (g.setXY x v).getXY x = v) ∧
  (∀ (g : Regs) (x : Index) (k l : Half) (v : Byte), (g.setHalf x k v).getHalf x l = if l = k then v else g.getHalf x l) ∧
  (∀ (g : Regs), g.bc = g.b ++ g.c ∧ g.de = g.d ++ g.e ∧ g.hl = g.h ++ g.l ∧ g.af = g.a ++ g.f) ∧
  (∀ (g : Regs) (v : Word), (g.setHl v).h = v.extractLsb' 8 8 ∧ (g.setHl v).l = v.extractLsb' 0 8)

/-- Completion, result and frame of the register loads (40_load8, 41_load16). -/
def Obligations.RegisterLoads : Prop :=
  ∀ s : State,
    let g := s.regs
    let special (v : Byte) : Regs :=
      { g with a := v, f := Flags.byte { s := v.getLsbD 7, z := v == 0, y := v.getLsbD 5, h := false, x := v.getLsbD 3,
                                         pv := g.iff2, n := false, c := g.f.getLsbD 0 } }
    (∀ r q, completes (.ldRR r q) s (g.set8 r (g.get8 q)) [] 4) ∧
    (∀ r n, completes (.ldRN r n) s (g.set8 r n) [] 7) ∧
    (∀ k p, completes (.ldIxHalfP k p) s (g.setHalf .ix k (g.getUnderPrefix .ix p)) [] 8) ∧
    (∀ k p, completes (.ldIyHalfP k p) s (g.setHalf .iy k (g.getUnderPrefix .iy p)) [] 8) ∧
    (∀ p k, completes (.ldPIxHalf p k) s (g.setUnderPrefix .ix p (g.getHalf .ix k)) [] 8) ∧
    (∀ p k, completes (.ldPIyHalf p k) s (g.setUnderPrefix .iy p (g.getHalf .iy k)) [] 8) ∧
    (∀ n, completes (.ldIxhN n) s (g.setHalf .ix .hi n) [] 11) ∧
    (∀ n, completes (.ldIxlN n) s (g.setHalf .ix .lo n) [] 11) ∧
    (∀ n, completes (.ldIyhN n) s (g.setHalf .iy .hi n) [] 11) ∧
    (∀ n, completes (.ldIylN n) s (g.setHalf .iy .lo n) [] 11) ∧
    completes .ldIA s { g with i := g.a } [] 9 ∧
    completes .ldRegRA s { g with r := g.a } [] 9 ∧
    completes .ldAI s (special g.i) [] 9 ∧
    completes .ldARegR s (special g.r) [] 9 ∧
    (∀ p nn, completes (.ldDdNn p nn) s (g.setPair p nn) [] 10) ∧
    (∀ nn, completes (.ldHlNn nn) s (g.setHl nn) [] 10) ∧
    (∀ nn, completes (.ldIxNn nn) s { g with ix := nn } [] 14) ∧
    (∀ nn, completes (.ldIyNn nn) s { g with iy := nn } [] 14) ∧
    completes .ldSpHl s { g with sp := g.hl } [] 6 ∧
    completes .ldSpIx s { g with sp := g.ix } [] 10 ∧
    completes .ldSpIy s { g with sp := g.iy } [] 10

/-- Completion, result and frame of the loads from memory (40_load8, 41_load16); nothing is stored. -/
def Obligations.MemoryLoads : Prop :=
  ∀ s : State,
    let g := s.regs
    (∀ r, readable s g.hl = true → completes (.ldRMemHl r) s (g.set8 r (byteAt s g.hl)) [] 7) ∧
    (∀ r d, readable s (g.ix + d.signExtend 16) = true →
      completes (.ldRMemIx r d) s (g.set8 r (byteAt s (g.ix + d.signExtend 16))) [] 19) ∧
    (∀ r d, readable s (g.iy + d.signExtend 16) = true →
      completes (.ldRMemIy r d) s (g.set8 r (byteAt s (g.iy + d.signExtend 16))) [] 19) ∧
    (readable s g.bc = true → completes .ldAMemBc s { g with a := byteAt s g.bc } [] 7) ∧
    (readable s g.de = true → completes .ldAMemDe s { g with a := byteAt s g.de } [] 7) ∧
    (∀ nn, readable s nn = true → completes (.ldAMemNn nn) s { g with a := byteAt s nn } [] 13) ∧
    (∀ nn, readable s nn = true → readable s (nn + 1) = true →
      completes (.ldHlMemNn nn) s { g with h := byteAt s (nn + 1), l := byteAt s nn } [] 16 ∧
      (∀ p, completes (.ldDdMemNn p nn) s (g.setPair p (wordAt s nn)) [] 20) ∧
      completes (.ldIxMemNn nn) s { g with ix := wordAt s nn } [] 20 ∧
      completes (.ldIyMemNn nn) s { g with iy := wordAt s nn } [] 20)

/-- Completion, result and frame of the stores to RAM (40_load8, 41_load16, 20_memory R82). `Consistent` is needed for
the canonical form and the slot invariant only. -/
def Obligations.MemoryStores : Prop :=
  ∀ s : State, Consistent s = true →
    let g := s.regs
    (∀ r, writable s g.hl = true → completes (.ldMemHlR r) s g [(g.hl, g.get8 r)] 7) ∧
    (∀ n, writable s g.hl = true → completes (.ldMemHlN n) s g [(g.hl, n)] 10) ∧
    (∀ d r, writable s (g.ix + d.signExtend 16) = true →
      completes (.ldMemIxR d r) s g [(g.ix + d.signExtend 16, g.get8 r)] 19) ∧
    (∀ d r, writable s (g.iy + d.signExtend 16) = true →
      completes (.ldMemIyR d r) s g [(g.iy + d.signExtend 16, g.get8 r)] 19) ∧
    (∀ d n, writable s (g.ix + d.signExtend 16) = true →
      completes (.ldMemIxN d n) s g [(g.ix + d.signExtend 16, n)] 19) ∧
    (∀ d n, writable s (g.iy + d.signExtend 16) = true →
      completes (.ldMemIyN d n) s g [(g.iy + d.signExtend 16, n)] 19) ∧
    (writable s g.bc = true → completes .ldMemBcA s g [(g.bc, g.a)] 7) ∧
    (writable s g.de = true → completes .ldMemDeA s g [(g.de, g.a)] 7) ∧
    (∀ nn, writable s nn = true → completes (.ldMemNnA nn) s g [(nn, g.a)] 13) ∧
    (∀ nn, writable s nn = true → writable s (nn + 1) = true →
      completes (.ldMemNnHl nn) s g [(nn, g.l), (nn + 1, g.h)] 16 ∧
      (∀ p, completes (.ldMemNnDd nn p) s g [(nn, lo (g.getPair p)), (nn + 1, hi (g.getPair p))] 20) ∧
      completes (.ldMemNnIx nn) s g [(nn, lo g.ix), (nn + 1, hi g.ix)] 20 ∧
      completes (.ldMemNnIy nn) s g [(nn, lo g.iy), (nn + 1, hi g.iy)] 20)

/-- Completion, result and frame of PUSH and POP (41_load16 R251 to R256). -/
def Obligations.PushAndPop : Prop :=
  ∀ s : State, Consistent s = true →
    let g := s.regs
    let down : Regs := { g with sp := g.sp - 2 }
    let up : Regs := { g with sp := g.sp + 2 }
    let pushed (v : Word) := [(g.sp - 1, hi v), (g.sp - 2, lo v)]
    (writable s (g.sp - 1) = true → writable s (g.sp - 2) = true →
      (∀ q, completes (.pushQq q) s down (pushed (g.getQPair q)) 11) ∧
      completes .pushHl s down (pushed g.hl) 11 ∧
      completes .pushIx s down (pushed g.ix) 15 ∧
      completes .pushIy s down (pushed g.iy) 15) ∧
    (readable s g.sp = true → readable s (g.sp + 1) = true →
      (∀ q, completes (.popQq q) s (up.setQPair q (wordAt s g.sp)) [] 10) ∧
      completes .popHl s (up.setHl (wordAt s g.sp)) [] 10 ∧
      completes .popIx s { up with ix := wordAt s g.sp } [] 14 ∧
      completes .popIy s { up with iy := wordAt s g.sp } [] 14)

/-- Completion, result and frame of the exchanges (42_exchange_block R270 to R274). -/
def Obligations.Exchanges : Prop :=
  ∀ s : State,
    let g := s.regs
    completes .exDeHl s { g with d := g.h, e := g.l, h := g.d, l := g.e } [] 4 ∧
    completes .exAfAf s { g with a := hi g.afAlt, f := lo g.afAlt, afAlt := g.a ++ g.f } [] 4 ∧
    completes .exx s
      { g with b := hi g.bcAlt, c := lo g.bcAlt, bcAlt := g.b ++ g.c, d := hi g.deAlt, e := lo g.deAlt,
               deAlt := g.d ++ g.e, h := hi g.hlAlt, l := lo g.hlAlt, hlAlt := g.h ++ g.l } [] 4 ∧
    (Consistent s = true → readable s g.sp = true → readable s (g.sp + 1) = true →
      writable s g.sp = true → writable s (g.sp + 1) = true →
        completes .exMemSpHl s (g.setHl (wordAt s g.sp)) [(g.sp + 1, g.h), (g.sp, g.l)] 19 ∧
        completes .exMemSpIx s { g with ix := wordAt s g.sp } [(g.sp + 1, hi g.ix), (g.sp, lo g.ix)] 23 ∧
        completes .exMemSpIy s { g with iy := wordAt s g.sp } [(g.sp + 1, hi g.iy), (g.sp, lo g.iy)] 23)

/-- Completion, result and frame of the block transfers (42_exchange_block R275 to R278, R283). -/
def Obligations.BlockTransfers : Prop :=
  ∀ s : State, Consistent s = true → readable s s.regs.hl = true → writable s s.regs.de = true →
    let g := s.regs
    let t := byteAt s g.hl
    let k := Flags.ofByte g.f
    let after (by' : Word) : Regs :=
      { (((g.setHl (g.hl + by')).setDe (g.de + by')).setBc (g.bc - 1)) with
        f := Flags.byte { k with h := false, n := false, pv := g.bc - 1 != 0, x := (g.a + t).getLsbD 3,
                                 y := (g.a + t).getLsbD 1 } }
    let again (r : Regs) : Regs := if g.bc - 1 = 0 then r else { r with pc := r.pc - 2 }
    let T := if g.bc - 1 = 0 then 16 else 21
    completes .ldi s (after 1) [(g.de, t)] 16 ∧
    completes .ldd s (after (-1)) [(g.de, t)] 16 ∧
    completes .ldir s (again (after 1)) [(g.de, t)] T ∧
    completes .lddr s (again (after (-1))) [(g.de, t)] T

/-- Completion, result and frame of the block searches (42_exchange_block R279 to R283). -/
def Obligations.BlockSearches : Prop :=
  ∀ s : State, readable s s.regs.hl = true →
    let g := s.regs
    let t := byteAt s g.hl
    let k := Flags.ofByte g.f
    let half := decide (g.a.toNat % 16 < t.toNat % 16)
    let n := g.a - t - (if half then 1 else 0)
    let after (by' : Word) : Regs :=
      { ((g.setHl (g.hl + by')).setBc (g.bc - 1)) with
        f := Flags.byte { k with s := (g.a - t).getLsbD 7, z := g.a == t, h := half, pv := g.bc - 1 != 0, n := true,
                                 x := n.getLsbD 3, y := n.getLsbD 1 } }
    let stop := g.bc - 1 = 0 ∨ g.a = t
    let again (r : Regs) : Regs := if stop then r else { r with pc := r.pc - 2 }
    let T := if stop then 16 else 21
    completes .cpi s (after 1) [] 16 ∧
    completes .cpd s (after (-1)) [] 16 ∧
    completes .cpir s (again (after 1)) [] T ∧
    completes .cpdr s (again (after (-1))) [] T

/-- Completion and frame of ADD A,s; ADC A,s; SUB s; SBC A,s; AND s; XOR s; OR s; CP s in the forms of 43_arith8 R306
and R321: `addAR` ... `cpAR`, `addAN` ... `cpAN`, `addAMemHl` ... `cpAMemHl`, `addAMemIx` ... `cpAMemIy`, `addAIxh`
... `cpAIyl`. What the result is, AluMeaning says. -/
def Obligations.AccumulatorForms : Prop :=
  ∀ (op : AluOp) (s : State),
    let g := s.regs
    let out (v : Byte) : Regs :=
      { g with a := (aluResult op g.a v (g.f.getLsbD 0)).1, f := (aluResult op g.a v (g.f.getLsbD 0)).2.byte }
    (∀ r, completes (aluReg op r) s (out (g.get8 r)) [] 4) ∧
    (∀ n, completes (aluImm op n) s (out n) [] 7) ∧
    (readable s g.hl = true → completes (aluMem op) s (out (byteAt s g.hl)) [] 7) ∧
    (∀ x d, readable s (g.getXY x + d.signExtend 16) = true →
      completes (aluIdx op x d) s (out (byteAt s (g.getXY x + d.signExtend 16))) [] 19) ∧
    (∀ x, completes (aluHi op x) s (out (hi (g.getXY x))) [] 8) ∧
    (∀ x, completes (aluLo op x) s (out (lo (g.getXY x))) [] 8)

/-- The meaning of the flag conditions (43_arith8 R305) for the results of R300 to R303; overflow is said of the
signed values. -/
def Obligations.AluMeaning : Prop :=
  ∀ (a v : Byte) (c : Bool),
    let one (b : Bool) : Byte := if b then 1 else 0
    let sum (c : Bool) : Byte × Flags :=
      (a + v + one c,
        { s := (a + v + one c).getLsbD 7, z := a + v + one c == 0, y := (a + v + one c).getLsbD 5,
          h := decide (15 < a.toNat % 16 + v.toNat % 16 + c.toNat), x := (a + v + one c).getLsbD 3,
          pv := decide (a.toInt + v.toInt + c.toNat < -128 ∨ 127 < a.toInt + v.toInt + c.toNat), n := false,
          c := decide (255 < a.toNat + v.toNat + c.toNat) })
    let difference (c : Bool) : Byte × Flags :=
      (a - v - one c,
        { s := (a - v - one c).getLsbD 7, z := a - v - one c == 0, y := (a - v - one c).getLsbD 5,
          h := decide (a.toNat % 16 < v.toNat % 16 + c.toNat), x := (a - v - one c).getLsbD 3,
          pv := decide (a.toInt - v.toInt - c.toNat < -128 ∨ 127 < a.toInt - v.toInt - c.toNat), n := true,
          c := decide (a.toNat < v.toNat + c.toNat) })
    let logical (r : Byte) (h : Bool) : Byte × Flags :=
      (r, { s := r.getLsbD 7, z := r == 0, y := r.getLsbD 5, h := h, x := r.getLsbD 3, pv := r.cpop.toNat % 2 == 0,
            n := false, c := false })
    aluResult .add a v c = sum false ∧
    aluResult .adc a v c = sum c ∧
    aluResult .sub a v c = difference false ∧
    aluResult .sbc a v c = difference c ∧
    aluResult .and a v c = logical (a &&& v) true ∧
    aluResult .xor a v c = logical (a ^^^ v) false ∧
    aluResult .or a v c = logical (a ||| v) false ∧
    aluResult .cp a v c = (a, { (difference false).2 with y := v.getLsbD 5, x := v.getLsbD 3 })

/-- Completion, result and frame of the 8-bit INC and DEC (43_arith8 R304, R315 to R321). -/
def Obligations.IncDec8 : Prop :=
  ∀ s : State,
    let g := s.regs
    let flags (res : Byte) (h pv n : Bool) : Byte :=
      Flags.byte { s := res.getLsbD 7, z := res == 0, y := res.getLsbD 5, h := h, x := res.getLsbD 3, pv := pv, n := n,
                   c := g.f.getLsbD 0 }
    let up (v : Byte) : Byte := flags (v + 1) (v.toNat % 16 == 15) (v == 0x7F) false
    let down (v : Byte) : Byte := flags (v - 1) (v.toNat % 16 == 0) (v == 0x80) true
    (∀ r, completes (.incR r) s { g.set8 r (g.get8 r + 1) with f := up (g.get8 r) } [] 4) ∧
    (∀ r, completes (.decR r) s { g.set8 r (g.get8 r - 1) with f := down (g.get8 r) } [] 4) ∧
    completes .incIxh s { g.setHalf .ix .hi (hi g.ix + 1) with f := up (hi g.ix) } [] 8 ∧
    completes .incIxl s { g.setHalf .ix .lo (lo g.ix + 1) with f := up (lo g.ix) } [] 8 ∧
    completes .incIyh s { g.setHalf .iy .hi (hi g.iy + 1) with f := up (hi g.iy) } [] 8 ∧
    completes .incIyl s { g.setHalf .iy .lo (lo g.iy + 1) with f := up (lo g.iy) } [] 8 ∧
    completes .decIxh s { g.setHalf .ix .hi (hi g.ix - 1) with f := down (hi g.ix) } [] 8 ∧
    completes .decIxl s { g.setHalf .ix .lo (lo g.ix - 1) with f := down (lo g.ix) } [] 8 ∧
    completes .decIyh s { g.setHalf .iy .hi (hi g.iy - 1) with f := down (hi g.iy) } [] 8 ∧
    completes .decIyl s { g.setHalf .iy .lo (lo g.iy - 1) with f := down (lo g.iy) } [] 8 ∧
    (Consistent s = true → readable s g.hl = true → writable s g.hl = true →
      let v := byteAt s g.hl
      completes .incMemHl s { g with f := up v } [(g.hl, v + 1)] 11 ∧
      completes .decMemHl s { g with f := down v } [(g.hl, v - 1)] 11) ∧
    (∀ d : Byte, Consistent s = true →
      (let a := g.ix + d.signExtend 16
       let v := byteAt s a
       readable s a = true → writable s a = true →
        completes (.incMemIx d) s { g with f := up v } [(a, v + 1)] 23 ∧
        completes (.decMemIx d) s { g with f := down v } [(a, v - 1)] 23) ∧
      (let a := g.iy + d.signExtend 16
       let v := byteAt s a
       readable s a = true → writable s a = true →
        completes (.incMemIy d) s { g with f := up v } [(a, v + 1)] 23 ∧
        completes (.decMemIy d) s { g with f := down v } [(a, v - 1)] 23))

/-- What DAA is for (44_cpu_control R340: adjusts A to packed BCD after an addition or subtraction of packed BCD
operands). -/
def Obligations.DaaAdjustsBcd : Prop :=
  ∀ (a v : Byte) (c : Bool),
    let bcd (x : Byte) := x.toNat / 16 < 10 ∧ x.toNat % 16 < 10
    let value (x : Byte) := 10 * (x.toNat / 16) + x.toNat % 16
    bcd a → bcd v →
      (let w := aluResult .adc a v c
       let r := daaResult w.1 w.2
       bcd r.1 ∧ value r.1 + 100 * r.2.c.toNat = value a + value v + c.toNat) ∧
      (let w := aluResult .sbc a v c
       let r := daaResult w.1 w.2
       bcd r.1 ∧ value r.1 + value v + c.toNat = value a + 100 * r.2.c.toNat)

/-- Completion, result and frame of 44_cpu_control R340 to R350. That X and Y of CCF and SCF are bits of A is the
spec's choice among what silicon does (log 25). -/
def Obligations.ControlGroup : Prop :=
  ∀ s : State,
    let g := s.regs
    let k := Flags.ofByte g.f
    let negated : Regs :=
      { g with a := 0 - g.a, f := Flags.byte { s := (0 - g.a).getLsbD 7, z := g.a == 0, y := (0 - g.a).getLsbD 5,
                                               h := decide (0 < g.a.toNat % 16), x := (0 - g.a).getLsbD 3,
                                               pv := g.a == 0x80, n := true, c := g.a != 0 } }
    let low := g.a.toNat % 16
    let corr : Byte := (if k.h ∨ 9 < low then 0x06 else 0) ||| (if k.c ∨ 0x99 < g.a.toNat then 0x60 else 0)
    let res := if k.n then g.a - corr else g.a + corr
    completes .daa s
      { g with a := res, f := Flags.byte { s := res.getLsbD 7, z := res == 0, y := res.getLsbD 5,
                                           h := if k.n then k.h && decide (low < 6) else decide (9 < low),
                                           x := res.getLsbD 3, pv := res.cpop.toNat % 2 == 0, n := k.n,
                                           c := k.c || decide (0x99 < g.a.toNat) } } [] 4 ∧
    completes .cpl s
      { g with a := ~~~g.a, f := Flags.byte { k with h := true, n := true, y := !g.a.getLsbD 5, x := !g.a.getLsbD 3 } }
      [] 4 ∧
    completes .neg s negated [] 8 ∧
    (∀ y, completes (.negCopy y) s negated [] 8) ∧
    completes .ccf s
      { g with f := Flags.byte { k with h := k.c, n := false, c := !k.c, y := g.a.getLsbD 5, x := g.a.getLsbD 3 } } [] 4 ∧
    completes .scf s
      { g with f := Flags.byte { k with h := false, n := false, c := true, y := g.a.getLsbD 5, x := g.a.getLsbD 3 } } [] 4 ∧
    completes .nop s g [] 4 ∧
    (∀ x, completes (.nopEd7 x) s g [] 8) ∧
    (∀ x, completes (.nopEdLow x) s g [] 8) ∧
    (∀ x, completes (.nopEdHigh x) s g [] 8) ∧
    (∀ x, completes (.nopEdMid x) s g [] 8) ∧
    (∀ y x, completes (.nopEdBlock y x) s g [] 8) ∧
    exec .halt s = .next (addT 4 { s with ctl := { s.ctl with halt := true } }) ∧
    exec .ei s = .next (addT 4 { s with regs := { g with iff1 := true, iff2 := true },
                                        ctl := { s.ctl with eiBlock := true } }) ∧
    completes .di s { g with iff1 := false, iff2 := false } [] 4 ∧
    completes .im0 s { g with im := .im0 } [] 8 ∧
    completes .im1 s { g with im := .im1 } [] 8 ∧
    completes .im2 s { g with im := .im2 } [] 8 ∧
    (∀ y, completes (.im0Copy y) s { g with im := .im0 } [] 8) ∧
    completes .im1Copy s { g with im := .im1 } [] 8 ∧
    completes .im2Copy s { g with im := .im2 } [] 8

/-- Completion, result and frame of 45_arith16 R370 to R373; overflow is said of the signed values (43_arith8 R305).
-/
def Obligations.AddSub16 : Prop :=
  ∀ s : State,
    let g := s.regs
    let k := Flags.ofByte g.f
    let c := k.c
    let one (b : Bool) : Word := if b then 1 else 0
    let addFlags (a b : Word) : Byte :=
      Flags.byte { k with h := decide (4095 < a.toNat % 4096 + b.toNat % 4096), n := false,
                          c := decide (65535 < a.toNat + b.toNat), y := (a + b).getLsbD 13, x := (a + b).getLsbD 11 }
    let flags (r : Word) (h pv n c : Bool) : Byte :=
      Flags.byte { s := r.getLsbD 15, z := r == 0, y := r.getLsbD 13, h := h, x := r.getLsbD 11, pv := pv, n := n, c := c }
    let adc (a b : Word) : Regs :=
      { g.setHl (a + b + one c) with
        f := flags (a + b + one c) (decide (4095 < a.toNat % 4096 + b.toNat % 4096 + c.toNat))
              (decide (a.toInt + b.toInt + c.toNat < -32768 ∨ 32767 < a.toInt + b.toInt + c.toNat)) false
              (decide (65535 < a.toNat + b.toNat + c.toNat)) }
    let sbc (a b : Word) : Regs :=
      { g.setHl (a - b - one c) with
        f := flags (a - b - one c) (decide (a.toNat % 4096 < b.toNat % 4096 + c.toNat))
              (decide (a.toInt - b.toInt - c.toNat < -32768 ∨ 32767 < a.toInt - b.toInt - c.toNat)) true
              (decide (a.toNat < b.toNat + c.toNat)) }
    (∀ p, completes (.addHlSs p) s { g.setHl (g.hl + g.getPair p) with f := addFlags g.hl (g.getPair p) } [] 11) ∧
    (∀ p, completes (.addIxPp p) s { g with ix := g.ix + g.getXPair .ix p, f := addFlags g.ix (g.getXPair .ix p) } [] 15) ∧
    (∀ p, completes (.addIyRr p) s { g with iy := g.iy + g.getXPair .iy p, f := addFlags g.iy (g.getXPair .iy p) } [] 15) ∧
    (∀ p, completes (.adcHlSs p) s (adc g.hl (g.getPair p)) [] 15) ∧
    (∀ p, completes (.sbcHlSs p) s (sbc g.hl (g.getPair p)) [] 15)

/-- Completion, result and frame of 45_arith16 R374 to R377. -/
def Obligations.IncDec16 : Prop :=
  ∀ s : State,
    let g := s.regs
    (∀ p, completes (.incSs p) s (g.setPair p (g.getPair p + 1)) [] 6) ∧
    completes .incHl s (g.setHl (g.hl + 1)) [] 6 ∧
    completes .incIx s { g with ix := g.ix + 1 } [] 10 ∧
    completes .incIy s { g with iy := g.iy + 1 } [] 10 ∧
    (∀ p, completes (.decSs p) s (g.setPair p (g.getPair p - 1)) [] 6) ∧
    completes .decHl s (g.setHl (g.hl - 1)) [] 6 ∧
    completes .decIx s { g with ix := g.ix - 1 } [] 10 ∧
    completes .decIy s { g with iy := g.iy - 1 } [] 10

/-- Completion and frame of `rlca`, `rla`, `rrca`, `rra` and of `rlcR` ... `srlR`, `rlcMemHl` ... `srlMemHl`,
`rlcMemIx` ... `srlMemIy`, `rlcMemIxR` ... `srlMemIyR`. `rotated` is the table of 46_rotate_shift R394, said with the
shifts and rotates of bit vectors. -/
def Obligations.RotateForms : Prop :=
  ∀ s : State,
    let g := s.regs
    let k := Flags.ofByte g.f
    let rotated (op : RotOp) (v : Byte) : Byte × Bool :=
      match op with
      | .rlc => (v.rotateLeft 1, v.msb)
      | .rrc => (v.rotateRight 1, v.getLsbD 0)
      | .rl => (v <<< 1 ||| (if k.c then 0x01 else 0), v.msb)
      | .rr => (v >>> 1 ||| (if k.c then 0x80 else 0), v.getLsbD 0)
      | .sla => (v <<< 1, v.msb)
      | .sra => (v.sshiftRight 1, v.getLsbD 0)
      | .sll => (v <<< 1 ||| 1, v.msb)
      | .srl => (v >>> 1, v.getLsbD 0)
    let acc (op : RotOp) : Regs :=
      let r := rotated op g.a
      { g with a := r.1, f := Flags.byte { k with h := false, n := false, c := r.2, y := r.1.getLsbD 5, x := r.1.getLsbD 3 } }
    let flags (r : Byte × Bool) : Byte :=
      Flags.byte { s := r.1.getLsbD 7, z := r.1 == 0, y := r.1.getLsbD 5, h := false, x := r.1.getLsbD 3,
                   pv := r.1.cpop.toNat % 2 == 0, n := false, c := r.2 }
    completes .rlca s (acc .rlc) [] 4 ∧
    completes .rla s (acc .rl) [] 4 ∧
    completes .rrca s (acc .rrc) [] 4 ∧
    completes .rra s (acc .rr) [] 4 ∧
    (∀ op r, let v := rotated op (g.get8 r)
      completes (rotReg op r) s { g.set8 r v.1 with f := flags v } [] 8) ∧
    (Consistent s = true → readable s g.hl = true → writable s g.hl = true →
      ∀ op, let v := rotated op (byteAt s g.hl)
        completes (rotMem op) s { g with f := flags v } [(g.hl, v.1)] 15) ∧
    (∀ x d, let a := g.getXY x + d.signExtend 16
      Consistent s = true → readable s a = true → writable s a = true →
        ∀ op, let v := rotated op (byteAt s a)
          completes (rotIdx op x d) s { g with f := flags v } [(a, v.1)] 23 ∧
          ∀ r, completes (rotIdxReg op x d r) s { g.set8 r v.1 with f := flags v } [(a, v.1)] 23)

/-- Completion, result and frame of RLD and RRD (46_rotate_shift R404, R405). -/
def Obligations.DigitRotates : Prop :=
  ∀ s : State, Consistent s = true → readable s s.regs.hl = true → writable s s.regs.hl = true →
    let g := s.regs
    let t := byteAt s g.hl
    let out (a : Byte) : Regs :=
      { g with a := a, f := Flags.byte { s := a.getLsbD 7, z := a == 0, y := a.getLsbD 5, h := false, x := a.getLsbD 3,
                                         pv := a.cpop.toNat % 2 == 0, n := false, c := g.f.getLsbD 0 } }
    completes .rld s (out ((g.a &&& 0xF0) ||| (t >>> 4))) [(g.hl, (t <<< 4) ||| (g.a &&& 0x0F))] 18 ∧
    completes .rrd s (out ((g.a &&& 0xF0) ||| (t &&& 0x0F))) [(g.hl, (g.a <<< 4) ||| (t >>> 4))] 18

/-- Completion, result and frame of BIT (47_bit R430 to R432). For `BIT b,(HL)` the spec leaves Y and X open: the
statement holds for whatever they are (log 8). -/
def Obligations.BitTests : Prop :=
  ∀ (s : State) (b : BitVec 3),
    let g := s.regs
    let out (v : Byte) (y x : Bool) : Regs :=
      { g with f := Flags.byte { s := b == 7 && v.getLsbD 7, z := !v.getLsbD b.toNat, y := y, h := true, x := x,
                                 pv := !v.getLsbD b.toNat, n := false, c := g.f.getLsbD 0 } }
    (∀ r, completes (.bitBR b r) s (out (g.get8 r) ((g.get8 r).getLsbD 5) ((g.get8 r).getLsbD 3)) [] 8) ∧
    (readable s g.hl = true →
      ∃ y x, completesWith (.bitBMemHl b) s (out (byteAt s g.hl) y x) [] 12 s.pio s.log 1) ∧
    (∀ d : Byte,
      (let a := g.ix + d.signExtend 16
       readable s a = true →
        completes (.bitBMemIx b d) s (out (byteAt s a) (a.getLsbD 13) (a.getLsbD 11)) [] 20 ∧
        ∀ z, completes (.bitBMemIxCopy b d z) s (out (byteAt s a) (a.getLsbD 13) (a.getLsbD 11)) [] 20) ∧
      (let a := g.iy + d.signExtend 16
       readable s a = true →
        completes (.bitBMemIy b d) s (out (byteAt s a) (a.getLsbD 13) (a.getLsbD 11)) [] 20 ∧
        ∀ z, completes (.bitBMemIyCopy b d z) s (out (byteAt s a) (a.getLsbD 13) (a.getLsbD 11)) [] 20))

/-- Completion, result and frame of SET and RES (47_bit R433 to R439). -/
def Obligations.SetAndResetBits : Prop :=
  ∀ (s : State) (b : BitVec 3),
    let g := s.regs
    let one (v : Byte) : Byte := v ||| ((1 : Byte) <<< b.toNat)
    let zero (v : Byte) : Byte := v &&& ~~~((1 : Byte) <<< b.toNat)
    (∀ r, completes (.setBR b r) s (g.set8 r (one (g.get8 r))) [] 8 ∧
      completes (.resBR b r) s (g.set8 r (zero (g.get8 r))) [] 8) ∧
    (Consistent s = true → readable s g.hl = true → writable s g.hl = true →
      completes (.setBMemHl b) s g [(g.hl, one (byteAt s g.hl))] 15 ∧
      completes (.resBMemHl b) s g [(g.hl, zero (byteAt s g.hl))] 15) ∧
    (∀ d : Byte, Consistent s = true →
      (let a := g.ix + d.signExtend 16
       readable s a = true → writable s a = true →
        completes (.setBMemIx b d) s g [(a, one (byteAt s a))] 23 ∧
        completes (.resBMemIx b d) s g [(a, zero (byteAt s a))] 23 ∧
        ∀ r, completes (.setBMemIxR b d r) s (g.set8 r (one (byteAt s a))) [(a, one (byteAt s a))] 23 ∧
          completes (.resBMemIxR b d r) s (g.set8 r (zero (byteAt s a))) [(a, zero (byteAt s a))] 23) ∧
      (let a := g.iy + d.signExtend 16
       readable s a = true → writable s a = true →
        completes (.setBMemIy b d) s g [(a, one (byteAt s a))] 23 ∧
        completes (.resBMemIy b d) s g [(a, zero (byteAt s a))] 23 ∧
        ∀ r, completes (.setBMemIyR b d r) s (g.set8 r (one (byteAt s a))) [(a, one (byteAt s a))] 23 ∧
          completes (.resBMemIyR b d r) s (g.set8 r (zero (byteAt s a))) [(a, zero (byteAt s a))] 23))

/-- Completion, result and frame of the jumps (48_jump_call_return R450 to R459) and the condition table (30_encoding
R167). -/
def Obligations.Jumps : Prop :=
  ∀ s : State,
    let g := s.regs
    let goto (taken : Bool) (a : Word) : Regs := if taken then { g with pc := a } else g
    let rel (taken : Bool) (e : Byte) : Regs := goto taken (g.pc + e.signExtend 16)
    let cost (taken : Bool) : Nat := if taken then 12 else 7
    (∀ nn, completes (.jpNn nn) s { g with pc := nn } [] 10) ∧
    (∀ cc nn, completes (.jpCcNn cc nn) s (goto (condHolds cc g.f) nn) [] 10) ∧
    (∀ e, completes (.jr e) s (rel true e) [] 12) ∧
    (∀ e, completes (.jrC e) s (rel (g.f.getLsbD 0) e) [] (cost (g.f.getLsbD 0))) ∧
    (∀ e, completes (.jrNc e) s (rel (!g.f.getLsbD 0) e) [] (cost (!g.f.getLsbD 0))) ∧
    (∀ e, completes (.jrZ e) s (rel (g.f.getLsbD 6) e) [] (cost (g.f.getLsbD 6))) ∧
    (∀ e, completes (.jrNz e) s (rel (!g.f.getLsbD 6) e) [] (cost (!g.f.getLsbD 6))) ∧
    completes .jpMemHl s { g with pc := g.hl } [] 4 ∧
    completes .jpMemIx s { g with pc := g.ix } [] 8 ∧
    completes .jpMemIy s { g with pc := g.iy } [] 8 ∧
    (∀ e, completes (.djnz e) s { rel (g.b != 1) e with b := g.b - 1 } [] (if g.b = 1 then 8 else 13)) ∧
    (∀ f : Byte, condHolds .nz f = !f.getLsbD 6 ∧ condHolds .z f = f.getLsbD 6 ∧ condHolds .nc f = !f.getLsbD 0 ∧
      condHolds .c f = f.getLsbD 0 ∧ condHolds .po f = !f.getLsbD 2 ∧ condHolds .pe f = f.getLsbD 2 ∧
      condHolds .p f = !f.getLsbD 7 ∧ condHolds .m f = f.getLsbD 7)

/-- Completion, result and frame of the calls, returns and restarts (48_jump_call_return R460 to R470, 44_cpu_control
R350). -/
def Obligations.CallsAndReturns : Prop :=
  ∀ s : State,
    let g := s.regs
    let pushed := [(g.sp - 1, hi g.pc), (g.sp - 2, lo g.pc)]
    let called (a : Word) : Regs := { g with sp := g.sp - 2, pc := a }
    let returned : Regs := { g with sp := g.sp + 2, pc := wordAt s g.sp }
    (Consistent s = true → writable s (g.sp - 1) = true → writable s (g.sp - 2) = true →
      (∀ nn, completes (.callNn nn) s (called nn) pushed 17) ∧
      (∀ cc nn, condHolds cc g.f = true → completes (.callCcNn cc nn) s (called nn) pushed 17) ∧
      (∀ t, completes (.rst t) s (called (BitVec.ofNat 16 (8 * t.toNat))) pushed 11)) ∧
    (readable s g.sp = true → readable s (g.sp + 1) = true →
      completes .ret s returned [] 10 ∧
      (∀ cc, condHolds cc g.f = true → completes (.retCc cc) s returned [] 11) ∧
      completes .reti s { returned with iff1 := g.iff2 } [] 14 ∧
      completes .retn s { returned with iff1 := g.iff2 } [] 14 ∧
      (∀ y, completes (.retnCopy y) s { returned with iff1 := g.iff2 } [] 14)) ∧
    (∀ cc, condHolds cc g.f = false →
      (∀ nn, completes (.callCcNn cc nn) s g [] 10) ∧ completes (.retCc cc) s g [] 5)

/-- Completion, result and frame of the port instructions on a port without an answer (49_io, 60_exceptions R524, R552
to R554). -/
def Obligations.SilentPorts : Prop :=
  (∀ s : State, s.ctl.input = false → s.ctl.output = false →
    let g := s.regs
    let cached (v : Byte) : Pio := { s.pio with ioCache := v }
    let flagged : Byte := Flags.byte { s := true, z := false, y := true, h := false, x := true, pv := true, n := false,
                                       c := g.f.getLsbD 0 }
    (∀ n, emptyPort s n = true →
      completesWith (.inAN n) s { g with a := 0xFF } [] 11 (cached 0xFF) (.noAnswerIn n :: s.log) 0 ∧
      completesWith (.outNA n) s g [] 11 (cached g.a) (.noAnswerOut n :: s.log) 0) ∧
    (emptyPort s g.c = true →
      (∀ r, completesWith (.inRC r) s (({ g with f := flagged } : Regs).set8 r 0xFF) [] 12 (cached 0xFF)
        (.noAnswerIn g.c :: s.log) 0) ∧
      completesWith .inFC s { g with f := flagged } [] 12 (cached 0xFF) (.noAnswerIn g.c :: s.log) 0 ∧
      (∀ r, completesWith (.outCR r) s g [] 12 (cached (g.get8 r)) (.noAnswerOut g.c :: s.log) 0) ∧
      completesWith .outC0 s g [] 12 (cached 0) (.noAnswerOut g.c :: s.log) 0)) ∧
  (∀ (s : State) (p : Byte) (d : Device), deviceAt s p = some d →
    (d.active = true ∧ (d.protectedPort = false ∨ portProtectRule s = true)) ∨ dispatchPort p s = .ok () s)

/-- The port instructions on a device that answers (60_exceptions R551 to R553); the device is the latch of
95_test_vectors, the model's own device kind (log 6). -/
def Obligations.AnsweringPorts : Prop :=
  ∀ (s : State) (v : Byte), s.ctl.input = false → s.ctl.output = false →
    let g := s.regs
    let cached : Pio := { s.pio with ioCache := v }
    let given (p w : Byte) : Pio :=
      { s.pio with ioCache := w,
                   devices := s.pio.devices.map fun d => if d.port == p then { d with own := w.toNat } else d }
    let flagged : Byte := Flags.byte { s := v.getLsbD 7, z := v == 0, y := v.getLsbD 5, h := false, x := v.getLsbD 3,
                                       pv := v.cpop.toNat % 2 == 0, n := false, c := g.f.getLsbD 0 }
    (∀ n, latchAt s n v = true →
      completesWith (.inAN n) s { g with a := v } [] 11 cached s.log 0 ∧
      completesWith (.outNA n) s g [] 11 (given n g.a) s.log 0) ∧
    (latchAt s g.c v = true →
      (∀ r, completesWith (.inRC r) s (({ g with f := flagged } : Regs).set8 r v) [] 12 cached s.log 0) ∧
      completesWith .inFC s { g with f := flagged } [] 12 cached s.log 0 ∧
      (∀ r, completesWith (.outCR r) s g [] 12 (given g.c (g.get8 r)) s.log 0) ∧
      completesWith .outC0 s g [] 12 (given g.c 0) s.log 0)

/-- Completion, result and frame of the block I/O instructions (49_io R482 to R493). The flags but Z are open in the
spec: the statement holds for whatever they are (log 8). -/
def Obligations.BlockIo : Prop :=
  ∀ s : State, s.ctl.input = false → s.ctl.output = false → emptyPort s s.regs.c = true →
    let g := s.regs
    let T := if g.b = 1 then 16 else 21
    let after (by' : Word) (f : Byte) : Regs := { g.setHl (g.hl + by') with b := g.b - 1, f := f }
    let again (r : Regs) : Regs := if g.b = 1 then r else { r with pc := r.pc - 2 }
    let flagged (f : Byte) := f.getLsbD 6 = (g.b == 1)
    (Consistent s = true → writable s g.hl = true →
      let does (i : Instr) (r : Regs) (T : Nat) :=
        completesWith i s r [(g.hl, 0xFF)] T { s.pio with ioCache := 0xFF } (.noAnswerIn g.c :: s.log) 1
      (∃ f, flagged f ∧ does .ini (after 1 f) 16) ∧
      (∃ f, flagged f ∧ does .ind (after (-1) f) 16) ∧
      (∃ f, flagged f ∧ does .inir (again (after 1 f)) T) ∧
      (∃ f, flagged f ∧ does .indr (again (after (-1) f)) T)) ∧
    (readable s g.hl = true →
      let does (i : Instr) (r : Regs) (T : Nat) :=
        completesWith i s r [] T { s.pio with ioCache := byteAt s g.hl } (.noAnswerOut g.c :: s.log) 1
      (∃ f, flagged f ∧ does .outi (after 1 f) 16) ∧
      (∃ f, flagged f ∧ does .outd (after (-1) f) 16) ∧
      (∃ f, flagged f ∧ does .otir (again (after 1 f)) T) ∧
      (∃ f, flagged f ∧ does .otdr (again (after (-1) f)) T))

/-- What a prefix byte does before the next byte is fetched (30_encoding R157). That a prefix row takes no T-states of
its own is the model's account of the totals (log 17). -/
def Obligations.PrefixBytes : Prop :=
  ∀ s : State,
    exec .prefixDd s = .next { s with ctl := { s.ctl with pfx := .dd } } ∧
    exec .prefixFd s = .next { s with ctl := { s.ctl with pfx := .fd } } ∧
    exec .prefixEd s = .next { s with ctl := { s.ctl with pfx := .none } } ∧
    exec .prefixCb s = .next s ∧
    exec .prefixXyCb s = .next s

/-- 20_memory R61, the source's testable property 1. -/
def Obligations.BankSplit : Prop :=
  ∀ a : Word, (bankOf a).toNat = a.toNat / 16384 ∧ offsetOf a = a.toNat % 16384 ∧ (bankOf a).toNat < 4 ∧
    offsetOf a < 16384 ∧ (bankOf a).toNat * 16384 + offsetOf a = a.toNat

/-- The resolution order of 20_memory R63 with the windows of R64 and R65, the shadow of R66 and the slot of R67. -/
def Obligations.ResolutionOrder : Prop :=
  ∀ (s : State) (a : Word), s.mem.normal.wf = true →
    let c := s.cfg
    let o := a.toNat % 16384
    let slot := match s.mem.view with
      | .normal => s.mem.normal.ofBank (bankOf a)
      | .bootMapped => (bootDerive c s.mem.normal).ofBank (bankOf a)
    let on := s.mem.view = .normal ∨ c.remapInBootView = true
    let n27 := s.mem.remap27.toNat
    let n28 := s.mem.remap28.toNat
    resolve s a =
      if 0 < n27 ∧ on ∧ 0xC000 ≤ a.toNat ∧ 0x10000 ≤ a.toNat + c.remapUnit * min n27 c.remap27MaxUnits then (true, o)
      else if 0 < n28 ∧ on ∧ 0x8000 ≤ a.toNat ∧ a.toNat < 0xC000 ∧ c.remap28Base ≤ o ∧
          o < c.remap28Base + c.remapUnit * n28 then (true, 16384 + o)
      else if c.ramVersion = 2 ∧ slot.isRam = true ∧ 2 < slot.page.toNat then (true, 2 * 16384 + o)
      else (slot.isRam, slot.page.toNat * 16384 + o)

/-- 20_memory R72 field by field over all tables, and R73, the source's testable property 2. -/
def Obligations.BootTable : Prop :=
  (∀ s : State, s.mem.view = .normal → activeTable s = s.mem.normal) ∧
  (∀ s : State, s.mem.view = .bootMapped →
    let n := s.mem.normal
    let bit0 := s.cfg.bootSlot2Bit0.getD (decide (s.cfg.flashVersion ≠ 1))
    let even := n.slot1.page &&& 0xFE
    let other := if bit0 then n.slot1.page ||| 0x01 else even
    activeTable s =
      { slot0 := n.slot0
        slot1 := { isRam := n.slot1.isRam, page := even, baseOffset := even.toNat * 16384,
                   readOnly := n.slot1.readOnly, noExec := n.slot1.noExec }
        slot2 := { isRam := n.slot1.isRam, page := other, baseOffset := other.toNat * 16384,
                   readOnly := n.slot1.readOnly, noExec := n.slot1.noExec }
        slot3 := n.slot2
        slot4 := n.slot3 }) ∧
  (∀ (s : State) (bank : Fin 5) (page : Byte), page.toNat < s.cfg.flashPages →
    ∃ t, changePage bank page false s = .ok () t ∧ t.mem.normal.slotAt bank = BankSlot.fresh false page ∧
      (activeTable (setView .bootMapped t)).slot1.page = t.mem.normal.slot1.page &&& 0xFE)

/-- 20_memory R89, the source's testable property 3. -/
def Obligations.RoundTrip : Prop :=
  ∀ (s : State) (a b : Word) (v : Byte) (w : View), Consistent s = true → writable s a = true →
    ∃ t, memWrite a v s = .ok () t ∧
      (readable (setView w t) b = true → resolve (setView w t) b = resolve s a →
        ∃ u, memRead b (setView w t) = .ok v u)

/-- 20_memory R83; the byte's timing penalty is the gated one of R81. -/
def Obligations.ReadOnlySlot : Prop :=
  ∀ (s : State) (a : Word) (v : Byte), inStore s.cfg (resolve s a).1 (resolve s a).2 = true → (resolve s a).1 = true →
    (slotOf s a).readOnly = true →
    markedFor (·.onWrite) (canonOf (resolve s a).1 (resolve s a).2) s = false →
      (inWindow s a = false →
        memWrite a v s = .ok () (addTGated s.cfg.delays.writeRam
          { s with ctl := { s.ctl with bus := v, read := false, write := true } })) ∧
      (inWindow s a = true → s.mem.ram.wf = true →
        ∃ t, memWrite a v s = .ok () t ∧ byteAt t a = v)

/-- 20_memory R101, with the source's testable property 8; the hook is absent, so raising the event is all that
happens (60_exceptions R522). -/
def Obligations.FlashGate : Prop :=
  (∀ (s : State) (page : Byte), flashWriteAllowed s page = true ↔
    s.mem.flashLocked = false ∧ s.cfg.modelClass = .flashEra ∧ ((page ≠ 0x3F ∧ page ≠ 0x2F) ∨ s.cfg.capA = true) ∧
      ((page ≠ 0x7F ∧ page ≠ 0x6F) ∨ s.cfg.capB = true ∨ s.cfg.capC = false)) ∧
  (∀ (s : State) (a : Word) (v : Byte), flashTarget s a = true → flashWriteAllowed s (slotOf s a).page = false →
    s.cfg.hooks.invalidFlash = none →
      ∃ t, memWrite a v s = .ok () t ∧ t.mem = s.mem ∧ t.log = .event (.invalidFlash a v) :: s.log ∧ t.regs = s.regs ∧
        t.pio = s.pio)

/-- The table of 20_memory R121, written out as `flashTable`, against the transitions that the model takes from R105
to R120. -/
def Obligations.FlashTransitions : Prop :=
  ∀ (s : State) (a : Word) (v : Byte), flashWritable s a = true → s.cfg.hooks = Hooks.absent → s.mem.marks = [] →
    ¬(s.mem.flashState = .erase55 ∧ v = 0x30) →
      ∃ t, memWrite a v s = .ok () t ∧
        match flashTable s.cfg.flashVersion s.mem.flashState a v with
        | some x => t.mem.flashState = x ∧ t.log = s.log ∧
          (s.mem.flashState = .program ∨ s.mem.flashState = .fastmodeProg ∨ (s.mem.flashState = .erase55 ∧ v = 0x10) ∨
            t.mem = { s.mem with flashState := x })
        | none => t.mem = { s.mem with flashState := .read } ∧ t.log = .event (.invalidFlash a v) :: s.log

/-- 20_memory R112, with the next states of R109 and R117. -/
def Obligations.ByteProgram : Prop :=
  ∀ (s : State) (a : Word) (v : Byte), Consistent s = true → flashWritable s a = true →
    s.mem.flashState = .program ∨ s.mem.flashState = .fastmodeProg →
      ∃ t, memWrite a v s = .ok () t ∧ byteAt t a = byteAt s a &&& v ∧
        (∀ isRam p, resolve s a ≠ (isRam, p) → storeGet t isRam p = storeGet s isRam p) ∧
        t.mem.flashError = (s.mem.flashError || byteAt s a &&& v != v) ∧
        t.mem.flashState = (if s.mem.flashState = .program then .read else .fastmode) ∧ t.mem.normal = s.mem.normal

/-- The source's testable property 4 (20_memory R123). -/
def Obligations.AutoselectSequence : Prop :=
  (∀ (s : State) (a b c : Word), s.mem.flashState = .read → flashWritable s a = true → flashWritable s b = true →
    flashWritable s c = true → a.toNat % 4096 = 0xAAA → b.toNat % 4096 = 0x555 → c.toNat % 4096 = 0xAAA →
      ∃ t, writeAll [(a, 0xAA), (b, 0x55), (c, 0x90)] s = .ok () t ∧
        t.mem = { s.mem with flashState := .autoselect } ∧ t.cfg = s.cfg) ∧
  (∀ (s : State) (a : Word), s.mem.flashState = .autoselect → a.toNat % 16384 = 0 → inWindow s a = false →
    (slotOf s a).isRam = false → inStore s.cfg (resolve s a).1 (resolve s a).2 = true →
    markedFor (·.onRead) (canonOf (resolve s a).1 (resolve s a).2) s = false →
      ∃ t, memRead a s = .ok 0x01 t ∧ t.mem = s.mem ∧ t.cfg = s.cfg)

/-- The source's testable property 5 (20_memory R114) by the sequence of R125. -/
def Obligations.ChipErase : Prop :=
  ∀ (s : State) (a1 a2 a3 a4 a5 a6 : Word), s.mem.flashState = .read → s.mem.marks = [] →
    (∀ a ∈ [a1, a2, a3, a4, a5, a6], flashWritable s a = true) →
    (∀ a ∈ [a1, a3, a4], a.toNat % 4096 = 0xAAA) → (∀ a ∈ [a2, a5], a.toNat % 4096 = 0x555) →
      ∃ t, writeAll [(a1, 0xAA), (a2, 0x55), (a3, 0x80), (a4, 0xAA), (a5, 0x55), (a6, 0x10)] s = .ok () t ∧
        (∀ p < s.cfg.flashPages * 16384, storeGet t false p = 0xFF) ∧ t.mem.ram = s.mem.ram ∧
        t.mem.flashError = s.mem.flashError ∧ t.mem.flashState = .read

/-- 20_memory R115 with the default table of R127, whose five branches are said by the 8 KiB unit of the address. -/
def Obligations.SectorErase : Prop :=
  ∀ (s : State) (a : Word), flashWritable s a = true → s.mem.normal.wf = true → s.mem.flashState = .erase55 →
    s.cfg.sectorRange = .default → 4 ≤ s.cfg.flashPages → (slotOf s a).page.toNat < s.cfg.flashPages →
      let K := 8192
      let T := s.cfg.flashPages * 2
      let u := ((slotOf s a).page.toNat * 16384 + a.toNat % 16384) / K
      let start := if u < T - 8 then u / 8 * 8 * K else if u < T - 4 then (T - 8) * K else if u < T - 3 then (T - 4) * K
        else if u < T - 2 then (T - 3) * K else (T - 2) * K
      let size := if u < T - 8 then 8 * K else if u < T - 4 then 4 * K else if u < T - 2 then K else 2 * K
      ∃ t, memWrite a 0x30 s = .ok () t ∧ t.mem.flashState = .read ∧
        start ≤ (resolve s a).2 ∧ (resolve s a).2 < start + size ∧
        (∀ p, start ≤ p → p < start + size → storeGet t false p = 0xFF) ∧
        (∀ p, p < start ∨ start + size ≤ p → storeGet t false p = storeGet s false p) ∧
        t.mem.ram = s.mem.ram ∧ t.mem.flashError = s.mem.flashError

/-- 30_encoding R155 within the fetch of R152. -/
def Obligations.BootUnmap : Prop :=
  ∀ s : State, s.cfg.modelClass = .flashEra → 0 < s.cfg.flashPages → (slotOf s s.regs.pc).noExec = false →
    s.cfg.execRule = .default → readable s s.regs.pc = true →
      ∃ t, opcodeFetch s = .ok (byteAt s s.regs.pc) t ∧
        t.regs = { s.regs with pc := s.regs.pc + 1, r := refreshBy 1 s.regs.r } ∧
        t.mem =
          if s.mem.bootUnmapDone = false ∧ 0x4000 ≤ s.regs.pc.toNat then
            { s.mem with normal := { s.mem.normal with slot0 := BankSlot.fresh false 0 }, bootUnmapDone := true }
          else s.mem

/-- The default action of 60_exceptions R521 inside the fetch of 30_encoding R152. -/
def Obligations.ExecutionViolation : Prop :=
  ∀ s : State, (slotOf s s.regs.pc).noExec = true → s.cfg.modelClass = .flashEra →
    s.cfg.hooks.execViolation = none → s.mem.marks = [] → 0 < s.cfg.flashPages → s.cfg.flashPages ≤ 256 →
      ∃ t, opcodeFetch s = .ok (storeGet s false ((s.cfg.flashPages - 1) * 16384)) t ∧
        t.regs = { Regs.reset with pc := 1, r := 1 } ∧
        t.mem = MemCtx.resetTo (BankTable.flashEra s.cfg.flashPages) s.mem ∧
        t.mem.ram = s.mem.ram ∧ t.mem.flash = s.mem.flash ∧ t.pio = s.pio ∧
        t.log = .event (.execViolation s.regs.pc) :: s.log ∧
        (s.cfg.timingGate = false → t.timer = s.timer)

/-- The acceptance condition of 60_exceptions R540 and line 1 of 30_encoding R150. -/
def Obligations.InterruptNotTaken : Prop :=
  (∀ (ran : Option Instr) (s : State), s.ctl.interrupt = false ∨ s.ctl.eiBlock = true ∨ s.regs.iff1 = false →
    deliverIfDue ran s = .ok () s) ∧
  (∀ s : State, (clearStepFlags s).ctl = { s.ctl with interrupt := false, eiBlock := false } ∧
    (clearStepFlags s).regs = s.regs ∧ (clearStepFlags s).mem = s.mem)

/-- 60_exceptions R541 for the restarts, with the acknowledgement of R540 and the flag of R544. -/
def Obligations.InterruptMode0 : Prop :=
  ∀ (ran : Option Instr) (s : State) (t : BitVec 3), Consistent s = true → s.ctl.interrupt = true → s.ctl.eiBlock = false →
    s.regs.iff1 = true → s.regs.im = .im0 → s.ctl.pfx = .none → s.ctl.bus = 0b11#2 ++ t ++ 0b111#3 →
    writable s (s.regs.sp - 1) = true → writable s (s.regs.sp - 2) = true →
      let g := s.regs
      let f := if ran = some .ldAI ∨ ran = some .ldARegR then g.f &&& 0xFB else g.f
      ∃ u, deliverIfDue ran s = .ok () u ∧ u.ctl.halt = false ∧
        Effect s { u with ctl := { u.ctl with halt := s.ctl.halt } }
          { g with sp := g.sp - 2, pc := BitVec.ofNat 16 (8 * t.toNat), iff1 := false, iff2 := false,
                   r := refreshBy 1 g.r, f := f }
          [(g.sp - 1, hi g.pc), (g.sp - 2, lo g.pc)] (s.cfg.im0Tstates + 11)

/-- 60_exceptions R542, with the acknowledgement of R540 and the flag of R544. -/
def Obligations.InterruptMode1 : Prop :=
  ∀ (ran : Option Instr) (s : State), Consistent s = true → s.ctl.interrupt = true → s.ctl.eiBlock = false →
    s.regs.iff1 = true → s.regs.im = .im1 →
    writable s (s.regs.sp - 1) = true → writable s (s.regs.sp - 2) = true →
      let g := s.regs
      let f := if ran = some .ldAI ∨ ran = some .ldARegR then g.f &&& 0xFB else g.f
      ∃ u, deliverIfDue ran s = .ok () u ∧ u.ctl.halt = false ∧
        Effect s { u with ctl := { u.ctl with halt := s.ctl.halt } }
          { g with sp := g.sp - 2, pc := s.cfg.im1Vector, iff1 := false, iff2 := false, r := refreshBy 1 g.r, f := f }
          [(g.sp - 1, hi g.pc), (g.sp - 2, lo g.pc)] s.cfg.im1Tstates

/-- 60_exceptions R543: the bus is sampled before the push, the table is read after it. -/
def Obligations.InterruptMode2 : Prop :=
  ∀ (ran : Option Instr) (s : State), Consistent s = true → s.ctl.interrupt = true → s.ctl.eiBlock = false →
    s.regs.iff1 = true → s.regs.im = .im2 →
    writable s (s.regs.sp - 1) = true → writable s (s.regs.sp - 2) = true →
    readable s (s.regs.i ++ s.ctl.bus) = true → readable s (s.regs.i ++ s.ctl.bus + 1) = true →
      let g := s.regs
      let f := if ran = some .ldAI ∨ ran = some .ldARegR then g.f &&& 0xFB else g.f
      ∃ u, deliverIfDue ran s = .ok () u ∧ u.ctl.halt = false ∧
        Effect s { u with ctl := { u.ctl with halt := s.ctl.halt } }
          { g with sp := g.sp - 2, pc := wordAt u (g.i ++ s.ctl.bus), iff1 := false, iff2 := false,
                   r := refreshBy 1 g.r, f := f }
          [(g.sp - 1, hi g.pc), (g.sp - 2, lo g.pc)] s.cfg.im2Tstates

/-- The wake-up of 60_exceptions R592 as one step; the device is the interrupt source of 95_test_vectors, the model's
own device kind (log 6). -/
def Obligations.HaltedCpuWakes : Prop :=
  ∀ (s : State) (e : IntEntry) (d : Device) (vec : Byte), Consistent s = true → s.ctl.halt = true → s.regs.iff1 = true →
    s.regs.im = .im1 → s.ctl.input = false → s.ctl.output = false → s.pio.intEntries = [e] → e.skipCount ≤ 1 →
    deviceAt s e.value = some d → d.active = true → d.kind = .irq vec →
    writable s (s.regs.sp - 1) = true → writable s (s.regs.sp - 2) = true →
      let g := s.regs
      ∃ t, step s = .next t ∧ t.ctl.halt = false ∧
        t.regs = { g with sp := g.sp - 2, pc := s.cfg.im1Vector, iff1 := false, iff2 := false,
                          r := refreshBy 1 (refreshBy s.cfg.haltRStep g.r) } ∧
        byteAt t (g.sp - 1) = hi g.pc ∧ byteAt t (g.sp - 2) = lo g.pc ∧
        t.pio.intEntries = [{ e with skipCount := e.skipFactor }]

/-- The source's testable property 7 (60_exceptions R531), for every skip factor. The device, whose run is what raises
the request, is the interrupt source IRQ(vec) of 95_test_vectors, the model's own device kind (log 6). -/
def Obligations.PollPeriod : Prop :=
  ∀ (s : State) (e : IntEntry) (d : Device) (vec : Byte), 1 ≤ e.skipFactor → e.skipCount = e.skipFactor →
    s.pio.intEntries = [e] → deviceAt s e.value = some d → d.active = true → d.kind = .irq vec →
    s.ctl.input = false → s.ctl.output = false → s.ctl.interrupt = false →
      (∀ k < e.skipFactor, ∃ t, pollTimes k s = .ok () t ∧ t.ctl.interrupt = false ∧
        t.pio.intEntries = [{ e with skipCount := e.skipFactor - k }]) ∧
      ∃ t, pollTimes e.skipFactor s = .ok () t ∧ t.ctl.interrupt = true ∧ t.pio.intEntries = [e]

/-- 70_reset R631, by 30_encoding R151 and R150; tame leaves out hooks and uninterpreted devices, which may do
anything (60_exceptions R551). -/
def Obligations.HaltedForever : Prop :=
  ∀ s : State, runEnded s = true → tame s = true → idle s = true →
    ∃ t, step s = .next t ∧ runEnded t = true ∧ tame t = true ∧ idle t = true ∧
      t.regs = { s.regs with r := refreshBy s.cfg.haltRStep s.regs.r } ∧ t.mem = s.mem ∧
      t.timer.tstates = s.timer.tstates + s.cfg.haltTstates

/-- 70_reset R601 (testable property 6), R602, R604, R605 and the state that `State.reset` is (log 20). That the
bindings of a pre-flash model give read_only and no_exec too is the model's choice (log 3). -/
def Obligations.ResetState : Prop :=
  (∀ s : State, s.cfg.modelClass = .flashEra → ∃ t, resetCpu s = .ok () t ∧
    (∀ r, t.regs.get8 r = 0) ∧ t.regs.f = 0 ∧ t.regs.afAlt = 0 ∧ t.regs.bcAlt = 0 ∧ t.regs.deAlt = 0 ∧
    t.regs.hlAlt = 0 ∧ t.regs.ix = 0 ∧ t.regs.iy = 0 ∧ t.regs.sp = 0 ∧ t.regs.pc = 0 ∧ t.regs.i = 0 ∧ t.regs.r = 0 ∧
    t.regs.iff1 = false ∧ t.regs.iff2 = false ∧ t.regs.im = .im1 ∧
    t.ctl = { bus := 0, halt := false, read := false, write := false, input := false, output := false,
              interrupt := false, eiBlock := false, pfx := .none } ∧
    t.mem.normal.slot0 = BankSlot.fresh false (BitVec.ofNat 8 (s.cfg.flashPages - 1)) ∧
    t.mem.normal.slot1 = BankSlot.fresh false 0 ∧ t.mem.normal.slot2 = BankSlot.fresh false 0 ∧
    t.mem.normal.slot3 = BankSlot.fresh true 0 ∧ t.mem.normal.slot4 = BankSlot.fresh true 0 ∧
    t.mem.view = .normal ∧ t.mem.flashState = .read ∧ t.mem.flashLocked = true ∧ t.mem.flashError = false ∧
    t.mem.remap27 = 0 ∧ t.mem.remap28 = 0 ∧ t.mem.bootUnmapDone = false ∧
    t.mem.ram = s.mem.ram ∧ t.mem.flash = s.mem.flash ∧ t.mem.marks = s.mem.marks ∧ t.timer = s.timer ∧
    t.pio = s.pio ∧ t.dbg = s.dbg ∧ t.log = s.log ∧ t.cfg = s.cfg) ∧
  (∀ s : State, s.cfg.modelClass = .preFlash → ∃ t, resetCpu s = .ok () t ∧ t.regs = Regs.reset ∧
    let m := s.cfg.resetMapPreFlash
    let binds (slot : BankSlot) (b : Binding) : Prop :=
      slot = { isRam := b.isRam, page := b.page, baseOffset := b.page.toNat * 16384, readOnly := b.readOnly,
               noExec := b.noExec }
    binds t.mem.normal.slot0 m.bank0 ∧ binds t.mem.normal.slot1 m.bank1 ∧ binds t.mem.normal.slot2 m.bank2 ∧
      binds t.mem.normal.slot3 m.bank3) ∧
  (∀ s : State, s.cfg.modelClass = .unrecognized → resetCpu s = .refused .unrecognizedModel) ∧
  (∀ (c : Config) (devices : List Device) (entries : List (Byte × Nat)), c.modelClass = .flashEra →
    ∃ t, State.powerOn c devices entries = .next t ∧ t.regs = Regs.reset ∧
      t.mem.normal = BankTable.flashEra c.flashPages ∧ (∀ isRam p, storeGet t isRam p = 0) ∧ t.mem.marks = [] ∧
      t.timer.tstates = 0 ∧ t.timer.elapsed = 0 ∧ t.pio.devices = devices ∧
      t.pio.intEntries = entries.map (fun e => { value := e.1, skipFactor := e.2, skipCount := e.2 }) ∧
      t.pio.ioCache = 0 ∧ t.dbg = { history := [], historyIndex := 0, profiling := false, histogram := [] } ∧
      t.cfg = c) ∧
  State.powerOn Config.standard [] [] = .next State.reset ∧
  resetCpu State.reset = .ok () State.reset

/-- 10_state R51 at State.reset. -/
def Obligations.ResetKeepsTheInvariants : Prop :=
  Consistent State.reset = true ∧ idle State.reset = true ∧ tame State.reset = true

/-- 10_state R51 (a) and (c), which a step keeps. -/
def Obligations.StepKeepsTheInvariants : Prop :=
  ∀ s t : State, Consistent s = true → step s = .next t → Consistent t = true

/-- 10_state R51 (d), with every device and hook, by R24 and R27 as log 29 reads them. -/
def Obligations.StepEndsIdle : Prop :=
  ∀ s t : State, step s = .next t → (idle s = true → idle t = true) ∧ tame t = tame s

/-- 10_state R42 (a natural number that only grows) and R49 (parameters are no state). -/
def Obligations.TimeGrowsAndParametersStay : Prop :=
  ∀ s t : State, step s = .next t → s.timer.tstates ≤ t.timer.tstates ∧ t.cfg = s.cfg

/-- The global lock of 20_memory R101 over a whole step, every instruction, poll and delivery included. -/
def Obligations.LockedFlashNeverChanges : Prop :=
  ∀ s t : State, s.mem.flashLocked = true → tame s = true → (∀ d ∈ s.pio.devices, d.kind ≠ .lock) →
    step s = .next t →
      t.mem.flash = s.mem.flash ∧ t.mem.flashLocked = true ∧ tame t = true ∧ ∀ d ∈ t.pio.devices, d.kind ≠ .lock

/-- The frame of the special registers over all instructions. R also moves in fetches, which are not part of exec. -/
def Obligations.SpecialRegistersFrame : Prop :=
  ∀ (i : Instr) (s t : State), tame s = true → exec i s = .next t →
    (i ≠ .ldIA → t.regs.i = s.regs.i) ∧
    (i ≠ .ldRegRA → t.regs.r = s.regs.r) ∧
    (i ≠ .ei → i ≠ .di → t.regs.iff2 = s.regs.iff2) ∧
    (i ≠ .ei → i ≠ .di → i ≠ .reti → i ≠ .retn → (∀ y, i ≠ .retnCopy y) → t.regs.iff1 = s.regs.iff1) ∧
    (i ≠ .im0 → i ≠ .im1 → i ≠ .im2 → (∀ y, i ≠ .im0Copy y) → i ≠ .im1Copy → i ≠ .im2Copy → t.regs.im = s.regs.im) ∧
    (i ≠ .exAfAf → t.regs.afAlt = s.regs.afAlt) ∧
    (i ≠ .exx → t.regs.bcAlt = s.regs.bcAlt ∧ t.regs.deAlt = s.regs.deAlt ∧ t.regs.hlAlt = s.regs.hlAlt) ∧
    (i ≠ .halt → t.ctl.halt = s.ctl.halt)

/-- The memory frame over all instructions (a plain read changes no memory byte, 20_memory R80). -/
def Obligations.OnlyStoresChangeMemory : Prop :=
  ∀ (i : Instr) (s t : State), tame s = true → storesMemory i = false → exec i s = .next t →
    t.mem.ram = s.mem.ram ∧ t.mem.flash = s.mem.flash ∧ t.mem.normal = s.mem.normal

/-- The block I/O instructions on a port whose device answers (49_io R482 to R493, 60_exceptions R551 to R553); the
device is the latch of 95_test_vectors, the model's own device kind (log 6). The flags but Z are open (log 8). -/
def Obligations.AnsweringBlockIo : Prop :=
  ∀ (s : State) (v : Byte), s.ctl.input = false → s.ctl.output = false → latchAt s s.regs.c v = true →
    let g := s.regs
    let T := if g.b = 1 then 16 else 21
    let after (by' : Word) (f : Byte) : Regs := { g.setHl (g.hl + by') with b := g.b - 1, f := f }
    let again (r : Regs) : Regs := if g.b = 1 then r else { r with pc := r.pc - 2 }
    let flagged (f : Byte) := f.getLsbD 6 = (g.b == 1)
    (Consistent s = true → writable s g.hl = true →
      let does (i : Instr) (r : Regs) (T : Nat) :=
        completesWith i s r [(g.hl, v)] T { s.pio with ioCache := v } s.log 1
      (∃ f, flagged f ∧ does .ini (after 1 f) 16) ∧
      (∃ f, flagged f ∧ does .ind (after (-1) f) 16) ∧
      (∃ f, flagged f ∧ does .inir (again (after 1 f)) T) ∧
      (∃ f, flagged f ∧ does .indr (again (after (-1) f)) T)) ∧
    (readable s g.hl = true →
      let w := byteAt s g.hl
      let taken : Pio :=
        { s.pio with ioCache := w,
                     devices := s.pio.devices.map fun d => if d.port == g.c then { d with own := w.toNat } else d }
      let does (i : Instr) (r : Regs) (T : Nat) := completesWith i s r [] T taken s.log 1
      (∃ f, flagged f ∧ does .outi (after 1 f) 16) ∧
      (∃ f, flagged f ∧ does .outd (after (-1) f) 16) ∧
      (∃ f, flagged f ∧ does .otir (again (after 1 f)) T) ∧
      (∃ f, flagged f ∧ does .otdr (again (after (-1) f)) T))

/-- The flash-read decoder (20_memory R122 to R124) on each kind of read access (R80, 30_encoding R152). -/
def Obligations.FlashReads : Prop :=
  ∀ (s : State) (a : Word) (kind : AccessKind), inWindow s a = false → (slotOf s a).isRam = false →
    inStore s.cfg (resolve s a).1 (resolve s a).2 = true →
    markedFor (·.onRead) (canonOf (resolve s a).1 (resolve s a).2) s = false →
      let o := a.toNat % 16384
      let stored := storeGet s false ((slotOf s a).baseOffset + o)
      let reads (v : Byte) (mem : MemCtx) (log : List LogLine) : Prop :=
        ∃ t, readByte kind a s = .ok v t ∧ t.mem = mem ∧ t.log = log ∧ t.regs = s.regs ∧ t.pio = s.pio ∧ t.cfg = s.cfg ∧
          t.ctl.bus = v
      (s.mem.flashState ≠ .autoselect → reads stored { s.mem with flashState := .read } s.log) ∧
      (s.mem.flashState = .autoselect →
        (o = 0 → reads 0x01 s.mem s.log) ∧
        (o = 2 → reads s.cfg.autoselectId2 s.mem s.log) ∧
        (o = 4 → reads s.cfg.autoselectId4 s.mem s.log) ∧
        (o ≠ 0 → o ≠ 2 → o ≠ 4 → s.cfg.hooks.invalidFlash = none →
          reads stored { s.mem with flashState := .read } (.event (.invalidFlash a 0) :: s.log)))

end
end

