-- ==== Sys2Proof/Laws/Memory.lean ====
section
/-! SUPPORT. The laws of a store's contents: read after write, and that every operation keeps the canonical form. -/

namespace Sys2Proof.Machine

theorem Memory.wfFrom_mono {lo lo' : Nat} {m : Memory} (h : lo ≤ lo') (hm : Memory.wfFrom lo' m = true) :
    Memory.wfFrom lo m = true := by
  cases m with
  | nil => rfl
  | cons c m =>
    simp only [Memory.wfFrom, Bool.and_eq_true, decide_eq_true_eq] at hm ⊢
    exact ⟨⟨by omega, hm.1.2⟩, hm.2⟩

/-- Below the least address a canonical memory lists, every byte is the unlisted one. -/
theorem Memory.get_below {lo : Nat} {m : Memory} (hm : Memory.wfFrom lo m = true) {a : Nat} (h : a < lo) :
    Memory.get m a = unlistedByte := by
  induction m generalizing lo with
  | nil => rfl
  | cons c m ih =>
    simp only [Memory.wfFrom, Bool.and_eq_true, decide_eq_true_eq] at hm
    rw [Memory.get, if_neg (by omega)]
    exact ih hm.2 (by omega)

theorem Memory.get_cons_same {lo : Nat} {m : Memory} {a : Nat} {v : Byte} (hm : Memory.wfFrom lo m = true) (h : a < lo) :
    Memory.get (Memory.cons a v m) a = v := by
  unfold Memory.cons
  split
  · rw [Memory.get_below hm h]; exact ‹v = unlistedByte›.symm
  · simp [Memory.get]

theorem Memory.get_cons_ne {m : Memory} {a b : Nat} {v : Byte} (h : b ≠ a) :
    Memory.get (Memory.cons a v m) b = Memory.get m b := by
  unfold Memory.cons
  split
  · rfl
  · simp [Memory.get, h]

theorem Memory.wfFrom_cons {lo : Nat} {m : Memory} {a : Nat} {v : Byte} (hm : Memory.wfFrom (a + 1) m = true) (h : lo ≤ a) :
    Memory.wfFrom lo (Memory.cons a v m) = true := by
  unfold Memory.cons
  split
  · exact Memory.wfFrom_mono (by omega) hm
  · simp_all [Memory.wfFrom]

theorem Memory.wfFrom_set {lo : Nat} {m : Memory} {a : Nat} (v : Byte) (hm : Memory.wfFrom lo m = true) (h : lo ≤ a) :
    Memory.wfFrom lo (Memory.set m a v) = true := by
  induction m generalizing lo with
  | nil => exact Memory.wfFrom_cons rfl h
  | cons c m ih =>
    obtain ⟨k, w⟩ := c
    have hm' := hm
    simp only [Memory.wfFrom, Bool.and_eq_true, decide_eq_true_eq] at hm
    unfold Memory.set
    split
    · refine Memory.wfFrom_cons ?_ h
      simp only [Memory.wfFrom, Bool.and_eq_true, decide_eq_true_eq]
      exact ⟨⟨by omega, hm.1.2⟩, hm.2⟩
    · split
      · subst_vars; exact Memory.wfFrom_cons hm.2 h
      · simp only [Memory.wfFrom, Bool.and_eq_true, decide_eq_true_eq]
        exact ⟨hm.1, ih hm.2 (by omega)⟩

/-- A write keeps the canonical form. -/
theorem Memory.wf_set {m : Memory} (hm : m.wf = true) (a : Nat) (v : Byte) : (Memory.set m a v).wf = true :=
  Memory.wfFrom_set v hm (Nat.zero_le a)

theorem Memory.get_set_same_from {lo : Nat} {m : Memory} (hm : Memory.wfFrom lo m = true) (a : Nat) (v : Byte) :
    Memory.get (Memory.set m a v) a = v := by
  induction m generalizing lo with
  | nil => exact Memory.get_cons_same (lo := a + 1) rfl (by omega)
  | cons c m ih =>
    obtain ⟨k, w⟩ := c
    simp only [Memory.wfFrom, Bool.and_eq_true, decide_eq_true_eq] at hm
    unfold Memory.set
    split
    · refine Memory.get_cons_same (lo := k) ?_ ‹a < k›
      simp only [Memory.wfFrom, Bool.and_eq_true, decide_eq_true_eq]
      exact ⟨⟨le_refl k, hm.1.2⟩, hm.2⟩
    · split
      · subst_vars; exact Memory.get_cons_same hm.2 (by omega)
      · rw [Memory.get, if_neg ‹_›]; exact ih hm.2

/-- A read after a write to the same address gives the byte written. -/
theorem Memory.get_set_same {m : Memory} (hm : m.wf = true) (a : Nat) (v : Byte) : Memory.get (Memory.set m a v) a = v :=
  Memory.get_set_same_from hm a v

/-- A write leaves every other address alone. -/
theorem Memory.get_set_ne (m : Memory) {a b : Nat} (v : Byte) (h : b ≠ a) :
    Memory.get (Memory.set m a v) b = Memory.get m b := by
  induction m with
  | nil => exact Memory.get_cons_ne h
  | cons c m ih =>
    obtain ⟨k, w⟩ := c
    unfold Memory.set
    split
    · exact Memory.get_cons_ne h
    · split
      · subst_vars; rw [Memory.get_cons_ne h, Memory.get, if_neg h]
      · simp only [Memory.get, ih]

theorem Memory.get_run {v : Byte} {a n b : Nat} (h : a ≤ b) (h' : b < a + n) : Memory.get (Memory.run v a n) b = v := by
  induction n generalizing a with
  | zero => omega
  | succ n ih =>
    rw [Memory.run, Memory.get]
    split
    · rfl
    · exact ih (by omega) (by omega)

theorem Memory.get_append (m m' : Memory) (b : Nat) :
    Memory.get (m ++ m') b = if m.any (fun c => c.1 == b) then Memory.get m b else Memory.get m' b := by
  induction m with
  | nil => simp
  | cons c m ih =>
    obtain ⟨k, w⟩ := c
    simp only [List.cons_append, Memory.get, List.any_cons, ih]
    by_cases h : b = k
    · simp [h]
    · simp [h, Ne.symm h]

theorem Memory.get_filter (m : Memory) (p : Nat → Bool) (b : Nat) :
    Memory.get (m.filter fun c => p c.1) b = if p b then Memory.get m b else unlistedByte := by
  induction m with
  | nil => simp [Memory.get]
  | cons c m ih =>
    obtain ⟨k, w⟩ := c
    by_cases hk : p k = true
    · rw [List.filter_cons_of_pos (by simpa using hk)]
      simp only [Memory.get, ih]
      by_cases hb : b = k
      · subst hb; simp [hk]
      · simp [hb]
    · rw [List.filter_cons_of_neg (by simpa using hk), ih]
      by_cases hb : b = k
      · subst hb; simp [hk]
      · simp [Memory.get, hb]

theorem Memory.get_of_not_any {m : Memory} {b : Nat} (h : (m.any fun c => c.1 == b) = false) :
    Memory.get m b = unlistedByte := by
  induction m with
  | nil => rfl
  | cons c m ih =>
    simp only [List.any_cons, Bool.or_eq_false_iff, beq_eq_false_iff_ne] at h
    rw [Memory.get, if_neg (fun e => h.1 e.symm)]
    exact ih h.2

theorem Memory.any_run {v : Byte} {a n b : Nat} :
    ((Memory.run v a n).any fun c => c.1 == b) = decide (a ≤ b ∧ b < a + n) := by
  induction n generalizing a with
  | zero => simp [Memory.run]
  | succ n ih =>
    rw [Memory.run, List.any_cons, ih]
    by_cases h : a = b
    · subst h; simp
    · simp only [beq_eq_false_iff_ne.mpr h, Bool.false_or, decide_eq_decide]; omega

/-- A fill writes its byte to every address of its range and to no other. -/
theorem Memory.get_fill (m : Memory) (a n : Nat) (v : Byte) (b : Nat) :
    Memory.get (Memory.fill m a n v) b = if a ≤ b ∧ b < a + n then v else Memory.get m b := by
  unfold Memory.fill
  rw [Memory.get_append, Memory.get_append]
  have key : ∀ p : Nat → Bool, Memory.get (m.filter fun c => p c.1) b = if p b then Memory.get m b else unlistedByte :=
    fun p => Memory.get_filter m p b
  have k1 := key fun k => decide (k < a)
  have k2 := key fun k => decide (a + n ≤ k)
  simp only [decide_eq_true_eq] at k1 k2
  have hany : ∀ p : Nat → Bool, p b = false → ((m.filter fun c => p c.1).any fun c => c.1 == b) = false := by
    intro p hp
    rw [List.any_eq_false]
    intro c hc hcb
    have := (List.mem_filter.mp hc).2
    rw [beq_iff_eq.mp hcb, hp] at this
    cases this
  rw [List.any_append]
  by_cases h : a ≤ b ∧ b < a + n
  · rw [if_pos h]
    have h1 := hany (fun k => decide (k < a)) (by simp; omega)
    rw [h1]
    by_cases hv : v = unlistedByte
    · have hge : ¬ a + n ≤ b := by omega
      simp [hv, k2, hge]
    · rw [if_neg hv, Memory.any_run]; simp [h, Memory.get_run h.1 h.2]
  · rw [if_neg h]
    have hr : ((if v = unlistedByte then [] else Memory.run v a n).any fun c => c.1 == b) = false := by
      split
      · rfl
      · rw [Memory.any_run]; simpa using h
    rw [hr, Bool.or_false]
    by_cases hb : b < a
    · by_cases hc : ((m.filter fun c => decide (c.1 < a)).any fun c => c.1 == b) = true
      · simp [hc, k1, hb]
      · simp only [Bool.not_eq_true] at hc
        rw [hc, if_neg (by simp), k2, if_neg (by omega)]
        have := Memory.get_of_not_any hc
        rw [k1, if_pos hb] at this
        exact this.symm
    · rw [hany (fun k => decide (k < a)) (by simpa using hb), if_neg (by simp), k2, if_pos (by omega)]

theorem Memory.wfFrom_filter {lo : Nat} {m : Memory} (p : Host.Cell → Bool) (hm : Memory.wfFrom lo m = true) :
    Memory.wfFrom lo (m.filter p) = true := by
  induction m generalizing lo with
  | nil => rfl
  | cons c m ih =>
    obtain ⟨k, w⟩ := c
    simp only [Memory.wfFrom, Bool.and_eq_true, decide_eq_true_eq] at hm
    rw [List.filter_cons]
    split
    · simp only [Memory.wfFrom, Bool.and_eq_true, decide_eq_true_eq]; exact ⟨hm.1, ih hm.2⟩
    · exact Memory.wfFrom_mono (by omega) (ih hm.2)

/-- Two canonical lists join when the second begins above every address of the first. -/
theorem Memory.wfFrom_append {lo hi : Nat} {m m' : Memory} (hm : Memory.wfFrom lo m = true)
    (hm' : Memory.wfFrom hi m' = true) (hlo : lo ≤ hi) (h : ∀ c ∈ m, c.1 < hi) : Memory.wfFrom lo (m ++ m') = true := by
  induction m generalizing lo with
  | nil => exact Memory.wfFrom_mono hlo hm'
  | cons c m ih =>
    obtain ⟨k, w⟩ := c
    simp only [Memory.wfFrom, Bool.and_eq_true, decide_eq_true_eq] at hm
    simp only [List.cons_append, Memory.wfFrom, Bool.and_eq_true, decide_eq_true_eq]
    refine ⟨hm.1, ih hm.2 ?_ fun c hc => h c (List.mem_cons_of_mem _ hc)⟩
    exact h (k, w) List.mem_cons_self

theorem Memory.wfFrom_run {v : Byte} (hv : v ≠ unlistedByte) (a n : Nat) : Memory.wfFrom a (Memory.run v a n) = true := by
  induction n generalizing a with
  | zero => rfl
  | succ n ih =>
    simp only [Memory.run, Memory.wfFrom, Bool.and_eq_true, decide_eq_true_eq, bne_iff_ne]
    exact ⟨⟨le_refl a, hv⟩, ih (a + 1)⟩

theorem Memory.mem_run_lt {v : Byte} {a n : Nat} {c : Host.Cell} (h : c ∈ Memory.run v a n) : c.1 < a + n := by
  induction n generalizing a with
  | zero => cases h
  | succ n ih =>
    rcases List.mem_cons.mp h with rfl | h
    · show a < a + (n + 1); omega
    · have := ih h; omega

theorem Memory.wfFrom_filter_above {lo hi : Nat} {m : Memory} (hm : Memory.wfFrom lo m = true) :
    Memory.wfFrom hi (m.filter fun c => decide (hi ≤ c.1)) = true := by
  induction m generalizing lo with
  | nil => rfl
  | cons c m ih =>
    obtain ⟨k, w⟩ := c
    simp only [Memory.wfFrom, Bool.and_eq_true, decide_eq_true_eq] at hm
    rw [List.filter_cons]
    split
    · rename_i hk
      simp only [Memory.wfFrom, Bool.and_eq_true, decide_eq_true_eq] at hk ⊢
      exact ⟨⟨hk, hm.1.2⟩, Memory.wfFrom_filter _ hm.2⟩
    · exact ih hm.2

/-- A fill keeps the canonical form. -/
theorem Memory.wf_fill {m : Memory} (hm : m.wf = true) (a n : Nat) (v : Byte) : (Memory.fill m a n v).wf = true := by
  have below : ∀ c ∈ m.filter fun c => decide (c.1 < a), c.1 < a := fun c hc => by
    simpa using (List.mem_filter.mp hc).2
  have mid : Memory.wfFrom a (if v = unlistedByte then [] else Memory.run v a n) = true := by
    split
    · rfl
    · exact Memory.wfFrom_run ‹_› a n
  have midLt : ∀ c ∈ (if v = unlistedByte then [] else Memory.run v a n), c.1 < a + n := by
    intro c hc
    split at hc
    · cases hc
    · exact Memory.mem_run_lt hc
  unfold Memory.fill Memory.wf
  rw [List.append_assoc]
  refine Memory.wfFrom_append (hi := a) (Memory.wfFrom_filter _ hm) ?_ (Nat.zero_le a) below
  exact Memory.wfFrom_append (hi := a + n) mid (Memory.wfFrom_filter_above hm) (by omega) midLt

end Sys2Proof.Machine
end

