-- ==== Sys2Proof/Laws/State.lean ====
section
/-! SUPPORT. One lemma per field of State per update: what the named updates leave and what they write. -/

namespace Sys2Proof.Machine

@[simp] theorem addT_regs (n : Nat) (s : State) : (addT n s).regs = s.regs := rfl
@[simp] theorem addT_ctl (n : Nat) (s : State) : (addT n s).ctl = s.ctl := rfl
@[simp] theorem addT_mem (n : Nat) (s : State) : (addT n s).mem = s.mem := rfl
@[simp] theorem addT_timer (n : Nat) (s : State) : (addT n s).timer = { tstates := s.timer.tstates + n, elapsed := s.timer.elapsed + n / s.cfg.freq } := rfl
@[simp] theorem addT_pio (n : Nat) (s : State) : (addT n s).pio = s.pio := rfl
@[simp] theorem addT_dbg (n : Nat) (s : State) : (addT n s).dbg = s.dbg := rfl
@[simp] theorem addT_log (n : Nat) (s : State) : (addT n s).log = s.log := rfl
@[simp] theorem addT_free (n : Nat) (s : State) : (addT n s).free = s.free := rfl
@[simp] theorem addT_cfg (n : Nat) (s : State) : (addT n s).cfg = s.cfg := rfl

@[simp] theorem setDirection_regs (rd wr : Bool) (s : State) : (setDirection rd wr s).regs = s.regs := rfl
@[simp] theorem setDirection_ctl (rd wr : Bool) (s : State) : (setDirection rd wr s).ctl = { s.ctl with read := rd, write := wr } := rfl
@[simp] theorem setDirection_mem (rd wr : Bool) (s : State) : (setDirection rd wr s).mem = s.mem := rfl
@[simp] theorem setDirection_timer (rd wr : Bool) (s : State) : (setDirection rd wr s).timer = s.timer := rfl
@[simp] theorem setDirection_pio (rd wr : Bool) (s : State) : (setDirection rd wr s).pio = s.pio := rfl
@[simp] theorem setDirection_dbg (rd wr : Bool) (s : State) : (setDirection rd wr s).dbg = s.dbg := rfl
@[simp] theorem setDirection_log (rd wr : Bool) (s : State) : (setDirection rd wr s).log = s.log := rfl
@[simp] theorem setDirection_free (rd wr : Bool) (s : State) : (setDirection rd wr s).free = s.free := rfl
@[simp] theorem setDirection_cfg (rd wr : Bool) (s : State) : (setDirection rd wr s).cfg = s.cfg := rfl

@[simp] theorem setBus_regs (v : Byte) (s : State) : (setBus v s).regs = s.regs := rfl
@[simp] theorem setBus_ctl (v : Byte) (s : State) : (setBus v s).ctl = { s.ctl with bus := v } := rfl
@[simp] theorem setBus_mem (v : Byte) (s : State) : (setBus v s).mem = s.mem := rfl
@[simp] theorem setBus_timer (v : Byte) (s : State) : (setBus v s).timer = s.timer := rfl
@[simp] theorem setBus_pio (v : Byte) (s : State) : (setBus v s).pio = s.pio := rfl
@[simp] theorem setBus_dbg (v : Byte) (s : State) : (setBus v s).dbg = s.dbg := rfl
@[simp] theorem setBus_log (v : Byte) (s : State) : (setBus v s).log = s.log := rfl
@[simp] theorem setBus_free (v : Byte) (s : State) : (setBus v s).free = s.free := rfl
@[simp] theorem setBus_cfg (v : Byte) (s : State) : (setBus v s).cfg = s.cfg := rfl

@[simp] theorem setFlashState_regs (x : FlashState) (s : State) : (setFlashState x s).regs = s.regs := rfl
@[simp] theorem setFlashState_ctl (x : FlashState) (s : State) : (setFlashState x s).ctl = s.ctl := rfl
@[simp] theorem setFlashState_mem (x : FlashState) (s : State) : (setFlashState x s).mem = { s.mem with flashState := x } := rfl
@[simp] theorem setFlashState_timer (x : FlashState) (s : State) : (setFlashState x s).timer = s.timer := rfl
@[simp] theorem setFlashState_pio (x : FlashState) (s : State) : (setFlashState x s).pio = s.pio := rfl
@[simp] theorem setFlashState_dbg (x : FlashState) (s : State) : (setFlashState x s).dbg = s.dbg := rfl
@[simp] theorem setFlashState_log (x : FlashState) (s : State) : (setFlashState x s).log = s.log := rfl
@[simp] theorem setFlashState_free (x : FlashState) (s : State) : (setFlashState x s).free = s.free := rfl
@[simp] theorem setFlashState_cfg (x : FlashState) (s : State) : (setFlashState x s).cfg = s.cfg := rfl

@[simp] theorem setFlashError_regs (s : State) : (setFlashError s).regs = s.regs := rfl
@[simp] theorem setFlashError_ctl (s : State) : (setFlashError s).ctl = s.ctl := rfl
@[simp] theorem setFlashError_mem (s : State) : (setFlashError s).mem = { s.mem with flashError := true } := rfl
@[simp] theorem setFlashError_timer (s : State) : (setFlashError s).timer = s.timer := rfl
@[simp] theorem setFlashError_pio (s : State) : (setFlashError s).pio = s.pio := rfl
@[simp] theorem setFlashError_dbg (s : State) : (setFlashError s).dbg = s.dbg := rfl
@[simp] theorem setFlashError_log (s : State) : (setFlashError s).log = s.log := rfl
@[simp] theorem setFlashError_free (s : State) : (setFlashError s).free = s.free := rfl
@[simp] theorem setFlashError_cfg (s : State) : (setFlashError s).cfg = s.cfg := rfl

@[simp] theorem setView_regs (v : View) (s : State) : (setView v s).regs = s.regs := rfl
@[simp] theorem setView_ctl (v : View) (s : State) : (setView v s).ctl = s.ctl := rfl
@[simp] theorem setView_mem (v : View) (s : State) : (setView v s).mem = { s.mem with view := v } := rfl
@[simp] theorem setView_timer (v : View) (s : State) : (setView v s).timer = s.timer := rfl
@[simp] theorem setView_pio (v : View) (s : State) : (setView v s).pio = s.pio := rfl
@[simp] theorem setView_dbg (v : View) (s : State) : (setView v s).dbg = s.dbg := rfl
@[simp] theorem setView_log (v : View) (s : State) : (setView v s).log = s.log := rfl
@[simp] theorem setView_free (v : View) (s : State) : (setView v s).free = s.free := rfl
@[simp] theorem setView_cfg (v : View) (s : State) : (setView v s).cfg = s.cfg := rfl

@[simp] theorem setSlotBits_regs (b : Fin 5) (ro nx : Bool) (s : State) : (setSlotBits b ro nx s).regs = s.regs := rfl
@[simp] theorem setSlotBits_ctl (b : Fin 5) (ro nx : Bool) (s : State) : (setSlotBits b ro nx s).ctl = s.ctl := rfl
@[simp] theorem setSlotBits_mem (b : Fin 5) (ro nx : Bool) (s : State) : (setSlotBits b ro nx s).mem = { s.mem with normal := s.mem.normal.setSlot b { s.mem.normal.slotAt b with readOnly := ro, noExec := nx } } := rfl
@[simp] theorem setSlotBits_timer (b : Fin 5) (ro nx : Bool) (s : State) : (setSlotBits b ro nx s).timer = s.timer := rfl
@[simp] theorem setSlotBits_pio (b : Fin 5) (ro nx : Bool) (s : State) : (setSlotBits b ro nx s).pio = s.pio := rfl
@[simp] theorem setSlotBits_dbg (b : Fin 5) (ro nx : Bool) (s : State) : (setSlotBits b ro nx s).dbg = s.dbg := rfl
@[simp] theorem setSlotBits_log (b : Fin 5) (ro nx : Bool) (s : State) : (setSlotBits b ro nx s).log = s.log := rfl
@[simp] theorem setSlotBits_free (b : Fin 5) (ro nx : Bool) (s : State) : (setSlotBits b ro nx s).free = s.free := rfl
@[simp] theorem setSlotBits_cfg (b : Fin 5) (ro nx : Bool) (s : State) : (setSlotBits b ro nx s).cfg = s.cfg := rfl

@[simp] theorem logLine_regs (x : LogLine) (s : State) : (logLine x s).regs = s.regs := rfl
@[simp] theorem logLine_ctl (x : LogLine) (s : State) : (logLine x s).ctl = s.ctl := rfl
@[simp] theorem logLine_mem (x : LogLine) (s : State) : (logLine x s).mem = s.mem := rfl
@[simp] theorem logLine_timer (x : LogLine) (s : State) : (logLine x s).timer = s.timer := rfl
@[simp] theorem logLine_pio (x : LogLine) (s : State) : (logLine x s).pio = s.pio := rfl
@[simp] theorem logLine_dbg (x : LogLine) (s : State) : (logLine x s).dbg = s.dbg := rfl
@[simp] theorem logLine_log (x : LogLine) (s : State) : (logLine x s).log = x :: s.log := rfl
@[simp] theorem logLine_free (x : LogLine) (s : State) : (logLine x s).free = s.free := rfl
@[simp] theorem logLine_cfg (x : LogLine) (s : State) : (logLine x s).cfg = s.cfg := rfl

@[simp] theorem setDeviceOwn_regs (p : Byte) (own : Nat) (s : State) : (setDeviceOwn p own s).regs = s.regs := rfl
@[simp] theorem setDeviceOwn_ctl (p : Byte) (own : Nat) (s : State) : (setDeviceOwn p own s).ctl = s.ctl := rfl
@[simp] theorem setDeviceOwn_mem (p : Byte) (own : Nat) (s : State) : (setDeviceOwn p own s).mem = s.mem := rfl
@[simp] theorem setDeviceOwn_timer (p : Byte) (own : Nat) (s : State) : (setDeviceOwn p own s).timer = s.timer := rfl
@[simp] theorem setDeviceOwn_pio (p : Byte) (own : Nat) (s : State) : (setDeviceOwn p own s).pio = { s.pio with devices := s.pio.devices.map fun d => if d.port == p then { d with own := own } else d } := rfl
@[simp] theorem setDeviceOwn_dbg (p : Byte) (own : Nat) (s : State) : (setDeviceOwn p own s).dbg = s.dbg := rfl
@[simp] theorem setDeviceOwn_log (p : Byte) (own : Nat) (s : State) : (setDeviceOwn p own s).log = s.log := rfl
@[simp] theorem setDeviceOwn_free (p : Byte) (own : Nat) (s : State) : (setDeviceOwn p own s).free = s.free := rfl
@[simp] theorem setDeviceOwn_cfg (p : Byte) (own : Nat) (s : State) : (setDeviceOwn p own s).cfg = s.cfg := rfl

@[simp] theorem onRegs_regs (k : Regs → Regs) (s : State) : (onRegs k s).regs = k s.regs := rfl
@[simp] theorem onRegs_ctl (k : Regs → Regs) (s : State) : (onRegs k s).ctl = s.ctl := rfl
@[simp] theorem onRegs_mem (k : Regs → Regs) (s : State) : (onRegs k s).mem = s.mem := rfl
@[simp] theorem onRegs_timer (k : Regs → Regs) (s : State) : (onRegs k s).timer = s.timer := rfl
@[simp] theorem onRegs_pio (k : Regs → Regs) (s : State) : (onRegs k s).pio = s.pio := rfl
@[simp] theorem onRegs_dbg (k : Regs → Regs) (s : State) : (onRegs k s).dbg = s.dbg := rfl
@[simp] theorem onRegs_log (k : Regs → Regs) (s : State) : (onRegs k s).log = s.log := rfl
@[simp] theorem onRegs_free (k : Regs → Regs) (s : State) : (onRegs k s).free = s.free := rfl
@[simp] theorem onRegs_cfg (k : Regs → Regs) (s : State) : (onRegs k s).cfg = s.cfg := rfl

@[simp] theorem setPc_regs (v : Word) (s : State) : (setPc v s).regs = { s.regs with pc := v } := rfl
@[simp] theorem setPc_ctl (v : Word) (s : State) : (setPc v s).ctl = s.ctl := rfl
@[simp] theorem setPc_mem (v : Word) (s : State) : (setPc v s).mem = s.mem := rfl
@[simp] theorem setPc_timer (v : Word) (s : State) : (setPc v s).timer = s.timer := rfl
@[simp] theorem setPc_pio (v : Word) (s : State) : (setPc v s).pio = s.pio := rfl
@[simp] theorem setPc_dbg (v : Word) (s : State) : (setPc v s).dbg = s.dbg := rfl
@[simp] theorem setPc_log (v : Word) (s : State) : (setPc v s).log = s.log := rfl
@[simp] theorem setPc_free (v : Word) (s : State) : (setPc v s).free = s.free := rfl
@[simp] theorem setPc_cfg (v : Word) (s : State) : (setPc v s).cfg = s.cfg := rfl

@[simp] theorem setSp_regs (v : Word) (s : State) : (setSp v s).regs = { s.regs with sp := v } := rfl
@[simp] theorem setSp_ctl (v : Word) (s : State) : (setSp v s).ctl = s.ctl := rfl
@[simp] theorem setSp_mem (v : Word) (s : State) : (setSp v s).mem = s.mem := rfl
@[simp] theorem setSp_timer (v : Word) (s : State) : (setSp v s).timer = s.timer := rfl
@[simp] theorem setSp_pio (v : Word) (s : State) : (setSp v s).pio = s.pio := rfl
@[simp] theorem setSp_dbg (v : Word) (s : State) : (setSp v s).dbg = s.dbg := rfl
@[simp] theorem setSp_log (v : Word) (s : State) : (setSp v s).log = s.log := rfl
@[simp] theorem setSp_free (v : Word) (s : State) : (setSp v s).free = s.free := rfl
@[simp] theorem setSp_cfg (v : Word) (s : State) : (setSp v s).cfg = s.cfg := rfl

@[simp] theorem setFlags_regs (k : Flags) (s : State) : (setFlags k s).regs = s.regs.setFlags k := rfl
@[simp] theorem setFlags_ctl (k : Flags) (s : State) : (setFlags k s).ctl = s.ctl := rfl
@[simp] theorem setFlags_mem (k : Flags) (s : State) : (setFlags k s).mem = s.mem := rfl
@[simp] theorem setFlags_timer (k : Flags) (s : State) : (setFlags k s).timer = s.timer := rfl
@[simp] theorem setFlags_pio (k : Flags) (s : State) : (setFlags k s).pio = s.pio := rfl
@[simp] theorem setFlags_dbg (k : Flags) (s : State) : (setFlags k s).dbg = s.dbg := rfl
@[simp] theorem setFlags_log (k : Flags) (s : State) : (setFlags k s).log = s.log := rfl
@[simp] theorem setFlags_free (k : Flags) (s : State) : (setFlags k s).free = s.free := rfl
@[simp] theorem setFlags_cfg (k : Flags) (s : State) : (setFlags k s).cfg = s.cfg := rfl

@[simp] theorem setAccFlags_regs (r : Byte × Flags) (s : State) : (setAccFlags r s).regs = Regs.setFlags r.2 { s.regs with a := r.1 } := rfl
@[simp] theorem setAccFlags_ctl (r : Byte × Flags) (s : State) : (setAccFlags r s).ctl = s.ctl := rfl
@[simp] theorem setAccFlags_mem (r : Byte × Flags) (s : State) : (setAccFlags r s).mem = s.mem := rfl
@[simp] theorem setAccFlags_timer (r : Byte × Flags) (s : State) : (setAccFlags r s).timer = s.timer := rfl
@[simp] theorem setAccFlags_pio (r : Byte × Flags) (s : State) : (setAccFlags r s).pio = s.pio := rfl
@[simp] theorem setAccFlags_dbg (r : Byte × Flags) (s : State) : (setAccFlags r s).dbg = s.dbg := rfl
@[simp] theorem setAccFlags_log (r : Byte × Flags) (s : State) : (setAccFlags r s).log = s.log := rfl
@[simp] theorem setAccFlags_free (r : Byte × Flags) (s : State) : (setAccFlags r s).free = s.free := rfl
@[simp] theorem setAccFlags_cfg (r : Byte × Flags) (s : State) : (setAccFlags r s).cfg = s.cfg := rfl

@[simp] theorem aluStep_regs (op : AluOp) (v : Byte) (s : State) : (aluStep op v s).regs = Regs.setFlags (aluResult op s.regs.a v (carryIn s)).2
    { s.regs with a := (aluResult op s.regs.a v (carryIn s)).1 } := rfl
@[simp] theorem aluStep_ctl (op : AluOp) (v : Byte) (s : State) : (aluStep op v s).ctl = s.ctl := rfl
@[simp] theorem aluStep_mem (op : AluOp) (v : Byte) (s : State) : (aluStep op v s).mem = s.mem := rfl
@[simp] theorem aluStep_timer (op : AluOp) (v : Byte) (s : State) : (aluStep op v s).timer = s.timer := rfl
@[simp] theorem aluStep_pio (op : AluOp) (v : Byte) (s : State) : (aluStep op v s).pio = s.pio := rfl
@[simp] theorem aluStep_dbg (op : AluOp) (v : Byte) (s : State) : (aluStep op v s).dbg = s.dbg := rfl
@[simp] theorem aluStep_log (op : AluOp) (v : Byte) (s : State) : (aluStep op v s).log = s.log := rfl
@[simp] theorem aluStep_free (op : AluOp) (v : Byte) (s : State) : (aluStep op v s).free = s.free := rfl
@[simp] theorem aluStep_cfg (op : AluOp) (v : Byte) (s : State) : (aluStep op v s).cfg = s.cfg := rfl

@[simp] theorem setInput_regs (v : Bool) (s : State) : (setInput v s).regs = s.regs := rfl
@[simp] theorem setInput_ctl (v : Bool) (s : State) : (setInput v s).ctl = { s.ctl with input := v } := rfl
@[simp] theorem setInput_mem (v : Bool) (s : State) : (setInput v s).mem = s.mem := rfl
@[simp] theorem setInput_timer (v : Bool) (s : State) : (setInput v s).timer = s.timer := rfl
@[simp] theorem setInput_pio (v : Bool) (s : State) : (setInput v s).pio = s.pio := rfl
@[simp] theorem setInput_dbg (v : Bool) (s : State) : (setInput v s).dbg = s.dbg := rfl
@[simp] theorem setInput_log (v : Bool) (s : State) : (setInput v s).log = s.log := rfl
@[simp] theorem setInput_free (v : Bool) (s : State) : (setInput v s).free = s.free := rfl
@[simp] theorem setInput_cfg (v : Bool) (s : State) : (setInput v s).cfg = s.cfg := rfl

@[simp] theorem setOutput_regs (v : Bool) (s : State) : (setOutput v s).regs = s.regs := rfl
@[simp] theorem setOutput_ctl (v : Bool) (s : State) : (setOutput v s).ctl = { s.ctl with output := v } := rfl
@[simp] theorem setOutput_mem (v : Bool) (s : State) : (setOutput v s).mem = s.mem := rfl
@[simp] theorem setOutput_timer (v : Bool) (s : State) : (setOutput v s).timer = s.timer := rfl
@[simp] theorem setOutput_pio (v : Bool) (s : State) : (setOutput v s).pio = s.pio := rfl
@[simp] theorem setOutput_dbg (v : Bool) (s : State) : (setOutput v s).dbg = s.dbg := rfl
@[simp] theorem setOutput_log (v : Bool) (s : State) : (setOutput v s).log = s.log := rfl
@[simp] theorem setOutput_free (v : Bool) (s : State) : (setOutput v s).free = s.free := rfl
@[simp] theorem setOutput_cfg (v : Bool) (s : State) : (setOutput v s).cfg = s.cfg := rfl

@[simp] theorem setIoCache_regs (v : Byte) (s : State) : (setIoCache v s).regs = s.regs := rfl
@[simp] theorem setIoCache_ctl (v : Byte) (s : State) : (setIoCache v s).ctl = s.ctl := rfl
@[simp] theorem setIoCache_mem (v : Byte) (s : State) : (setIoCache v s).mem = s.mem := rfl
@[simp] theorem setIoCache_timer (v : Byte) (s : State) : (setIoCache v s).timer = s.timer := rfl
@[simp] theorem setIoCache_pio (v : Byte) (s : State) : (setIoCache v s).pio = { s.pio with ioCache := v } := rfl
@[simp] theorem setIoCache_dbg (v : Byte) (s : State) : (setIoCache v s).dbg = s.dbg := rfl
@[simp] theorem setIoCache_log (v : Byte) (s : State) : (setIoCache v s).log = s.log := rfl
@[simp] theorem setIoCache_free (v : Byte) (s : State) : (setIoCache v s).free = s.free := rfl
@[simp] theorem setIoCache_cfg (v : Byte) (s : State) : (setIoCache v s).cfg = s.cfg := rfl

@[simp] theorem advanceR_regs (n : Nat) (s : State) : (advanceR n s).regs = { s.regs with r := refreshBy n s.regs.r } := rfl
@[simp] theorem advanceR_ctl (n : Nat) (s : State) : (advanceR n s).ctl = s.ctl := rfl
@[simp] theorem advanceR_mem (n : Nat) (s : State) : (advanceR n s).mem = s.mem := rfl
@[simp] theorem advanceR_timer (n : Nat) (s : State) : (advanceR n s).timer = s.timer := rfl
@[simp] theorem advanceR_pio (n : Nat) (s : State) : (advanceR n s).pio = s.pio := rfl
@[simp] theorem advanceR_dbg (n : Nat) (s : State) : (advanceR n s).dbg = s.dbg := rfl
@[simp] theorem advanceR_log (n : Nat) (s : State) : (advanceR n s).log = s.log := rfl
@[simp] theorem advanceR_free (n : Nat) (s : State) : (advanceR n s).free = s.free := rfl
@[simp] theorem advanceR_cfg (n : Nat) (s : State) : (advanceR n s).cfg = s.cfg := rfl

@[simp] theorem relJump_regs (e : Byte) (s : State) : (relJump e s).regs = { s.regs with pc := s.regs.pc + sext16 e } := rfl
@[simp] theorem relJump_ctl (e : Byte) (s : State) : (relJump e s).ctl = s.ctl := rfl
@[simp] theorem relJump_mem (e : Byte) (s : State) : (relJump e s).mem = s.mem := rfl
@[simp] theorem relJump_timer (e : Byte) (s : State) : (relJump e s).timer = s.timer := rfl
@[simp] theorem relJump_pio (e : Byte) (s : State) : (relJump e s).pio = s.pio := rfl
@[simp] theorem relJump_dbg (e : Byte) (s : State) : (relJump e s).dbg = s.dbg := rfl
@[simp] theorem relJump_log (e : Byte) (s : State) : (relJump e s).log = s.log := rfl
@[simp] theorem relJump_free (e : Byte) (s : State) : (relJump e s).free = s.free := rfl
@[simp] theorem relJump_cfg (e : Byte) (s : State) : (relJump e s).cfg = s.cfg := rfl

@[simp] theorem repeatInstr_regs (s : State) : (repeatInstr s).regs = { s.regs with pc := s.regs.pc - 2 } := rfl
@[simp] theorem repeatInstr_ctl (s : State) : (repeatInstr s).ctl = s.ctl := rfl
@[simp] theorem repeatInstr_mem (s : State) : (repeatInstr s).mem = s.mem := rfl
@[simp] theorem repeatInstr_timer (s : State) : (repeatInstr s).timer = s.timer := rfl
@[simp] theorem repeatInstr_pio (s : State) : (repeatInstr s).pio = s.pio := rfl
@[simp] theorem repeatInstr_dbg (s : State) : (repeatInstr s).dbg = s.dbg := rfl
@[simp] theorem repeatInstr_log (s : State) : (repeatInstr s).log = s.log := rfl
@[simp] theorem repeatInstr_free (s : State) : (repeatInstr s).free = s.free := rfl
@[simp] theorem repeatInstr_cfg (s : State) : (repeatInstr s).cfg = s.cfg := rfl

@[simp] theorem restoreIff_regs (s : State) : (restoreIff s).regs = { s.regs with iff1 := s.regs.iff2 } := rfl
@[simp] theorem restoreIff_ctl (s : State) : (restoreIff s).ctl = s.ctl := rfl
@[simp] theorem restoreIff_mem (s : State) : (restoreIff s).mem = s.mem := rfl
@[simp] theorem restoreIff_timer (s : State) : (restoreIff s).timer = s.timer := rfl
@[simp] theorem restoreIff_pio (s : State) : (restoreIff s).pio = s.pio := rfl
@[simp] theorem restoreIff_dbg (s : State) : (restoreIff s).dbg = s.dbg := rfl
@[simp] theorem restoreIff_log (s : State) : (restoreIff s).log = s.log := rfl
@[simp] theorem restoreIff_free (s : State) : (restoreIff s).free = s.free := rfl
@[simp] theorem restoreIff_cfg (s : State) : (restoreIff s).cfg = s.cfg := rfl

@[simp] theorem setEntry_regs (i : Nat) (e : IntEntry) (s : State) : (setEntry i e s).regs = s.regs := rfl
@[simp] theorem setEntry_ctl (i : Nat) (e : IntEntry) (s : State) : (setEntry i e s).ctl = s.ctl := rfl
@[simp] theorem setEntry_mem (i : Nat) (e : IntEntry) (s : State) : (setEntry i e s).mem = s.mem := rfl
@[simp] theorem setEntry_timer (i : Nat) (e : IntEntry) (s : State) : (setEntry i e s).timer = s.timer := rfl
@[simp] theorem setEntry_pio (i : Nat) (e : IntEntry) (s : State) : (setEntry i e s).pio = { s.pio with intEntries := s.pio.intEntries.set i e } := rfl
@[simp] theorem setEntry_dbg (i : Nat) (e : IntEntry) (s : State) : (setEntry i e s).dbg = s.dbg := rfl
@[simp] theorem setEntry_log (i : Nat) (e : IntEntry) (s : State) : (setEntry i e s).log = s.log := rfl
@[simp] theorem setEntry_free (i : Nat) (e : IntEntry) (s : State) : (setEntry i e s).free = s.free := rfl
@[simp] theorem setEntry_cfg (i : Nat) (e : IntEntry) (s : State) : (setEntry i e s).cfg = s.cfg := rfl

@[simp] theorem historyAppend_regs (s : State) : (historyAppend s).regs = s.regs := rfl
@[simp] theorem historyAppend_ctl (s : State) : (historyAppend s).ctl = s.ctl := rfl
@[simp] theorem historyAppend_mem (s : State) : (historyAppend s).mem = s.mem := rfl
@[simp] theorem historyAppend_timer (s : State) : (historyAppend s).timer = s.timer := rfl
@[simp] theorem historyAppend_pio (s : State) : (historyAppend s).pio = s.pio := rfl
@[simp] theorem historyAppend_log (s : State) : (historyAppend s).log = s.log := rfl
@[simp] theorem historyAppend_free (s : State) : (historyAppend s).free = s.free + 3 := rfl
@[simp] theorem historyAppend_cfg (s : State) : (historyAppend s).cfg = s.cfg := rfl

@[simp] theorem setPfx_regs (p : Pfx) (s : State) : (setPfx p s).regs = s.regs := rfl
@[simp] theorem setPfx_ctl (p : Pfx) (s : State) : (setPfx p s).ctl = { s.ctl with pfx := p } := rfl
@[simp] theorem setPfx_mem (p : Pfx) (s : State) : (setPfx p s).mem = s.mem := rfl
@[simp] theorem setPfx_timer (p : Pfx) (s : State) : (setPfx p s).timer = s.timer := rfl
@[simp] theorem setPfx_pio (p : Pfx) (s : State) : (setPfx p s).pio = s.pio := rfl
@[simp] theorem setPfx_dbg (p : Pfx) (s : State) : (setPfx p s).dbg = s.dbg := rfl
@[simp] theorem setPfx_log (p : Pfx) (s : State) : (setPfx p s).log = s.log := rfl
@[simp] theorem setPfx_free (p : Pfx) (s : State) : (setPfx p s).free = s.free := rfl
@[simp] theorem setPfx_cfg (p : Pfx) (s : State) : (setPfx p s).cfg = s.cfg := rfl

@[simp] theorem clearStepFlags_regs (s : State) : (clearStepFlags s).regs = s.regs := rfl
@[simp] theorem clearStepFlags_ctl (s : State) : (clearStepFlags s).ctl = { s.ctl with interrupt := false, eiBlock := false } := rfl
@[simp] theorem clearStepFlags_mem (s : State) : (clearStepFlags s).mem = s.mem := rfl
@[simp] theorem clearStepFlags_timer (s : State) : (clearStepFlags s).timer = s.timer := rfl
@[simp] theorem clearStepFlags_pio (s : State) : (clearStepFlags s).pio = s.pio := rfl
@[simp] theorem clearStepFlags_dbg (s : State) : (clearStepFlags s).dbg = s.dbg := rfl
@[simp] theorem clearStepFlags_log (s : State) : (clearStepFlags s).log = s.log := rfl
@[simp] theorem clearStepFlags_free (s : State) : (clearStepFlags s).free = s.free := rfl
@[simp] theorem clearStepFlags_cfg (s : State) : (clearStepFlags s).cfg = s.cfg := rfl

@[simp] theorem setBootUnmapDone_regs (s : State) : (setBootUnmapDone s).regs = s.regs := rfl
@[simp] theorem setBootUnmapDone_ctl (s : State) : (setBootUnmapDone s).ctl = s.ctl := rfl
@[simp] theorem setBootUnmapDone_mem (s : State) : (setBootUnmapDone s).mem = { s.mem with bootUnmapDone := true } := rfl
@[simp] theorem setBootUnmapDone_timer (s : State) : (setBootUnmapDone s).timer = s.timer := rfl
@[simp] theorem setBootUnmapDone_pio (s : State) : (setBootUnmapDone s).pio = s.pio := rfl
@[simp] theorem setBootUnmapDone_dbg (s : State) : (setBootUnmapDone s).dbg = s.dbg := rfl
@[simp] theorem setBootUnmapDone_log (s : State) : (setBootUnmapDone s).log = s.log := rfl
@[simp] theorem setBootUnmapDone_free (s : State) : (setBootUnmapDone s).free = s.free := rfl
@[simp] theorem setBootUnmapDone_cfg (s : State) : (setBootUnmapDone s).cfg = s.cfg := rfl

@[simp] theorem storeSet_regs (k : Bool) (p : Nat) (v : Byte) (s : State) : (storeSet k p v s).regs = s.regs := by
  cases k <;> rfl
@[simp] theorem flashFill_regs (p n : Nat) (v : Byte) (s : State) : (flashFill p n v s).regs = s.regs := rfl
@[simp] theorem addTGated_regs (n : Nat) (s : State) : (addTGated n s).regs = s.regs := by
  unfold addTGated; split <;> rfl
@[simp] theorem storeSet_ctl (k : Bool) (p : Nat) (v : Byte) (s : State) : (storeSet k p v s).ctl = s.ctl := by
  cases k <;> rfl
@[simp] theorem flashFill_ctl (p n : Nat) (v : Byte) (s : State) : (flashFill p n v s).ctl = s.ctl := rfl
@[simp] theorem addTGated_ctl (n : Nat) (s : State) : (addTGated n s).ctl = s.ctl := by
  unfold addTGated; split <;> rfl
@[simp] theorem storeSet_timer (k : Bool) (p : Nat) (v : Byte) (s : State) : (storeSet k p v s).timer = s.timer := by
  cases k <;> rfl
@[simp] theorem flashFill_timer (p n : Nat) (v : Byte) (s : State) : (flashFill p n v s).timer = s.timer := rfl
@[simp] theorem storeSet_pio (k : Bool) (p : Nat) (v : Byte) (s : State) : (storeSet k p v s).pio = s.pio := by
  cases k <;> rfl
@[simp] theorem flashFill_pio (p n : Nat) (v : Byte) (s : State) : (flashFill p n v s).pio = s.pio := rfl
@[simp] theorem addTGated_pio (n : Nat) (s : State) : (addTGated n s).pio = s.pio := by
  unfold addTGated; split <;> rfl
@[simp] theorem storeSet_dbg (k : Bool) (p : Nat) (v : Byte) (s : State) : (storeSet k p v s).dbg = s.dbg := by
  cases k <;> rfl
@[simp] theorem flashFill_dbg (p n : Nat) (v : Byte) (s : State) : (flashFill p n v s).dbg = s.dbg := rfl
@[simp] theorem addTGated_dbg (n : Nat) (s : State) : (addTGated n s).dbg = s.dbg := by
  unfold addTGated; split <;> rfl
@[simp] theorem storeSet_log (k : Bool) (p : Nat) (v : Byte) (s : State) : (storeSet k p v s).log = s.log := by
  cases k <;> rfl
@[simp] theorem flashFill_log (p n : Nat) (v : Byte) (s : State) : (flashFill p n v s).log = s.log := rfl
@[simp] theorem addTGated_log (n : Nat) (s : State) : (addTGated n s).log = s.log := by
  unfold addTGated; split <;> rfl
@[simp] theorem storeSet_free (k : Bool) (p : Nat) (v : Byte) (s : State) : (storeSet k p v s).free = s.free := by
  cases k <;> rfl
@[simp] theorem flashFill_free (p n : Nat) (v : Byte) (s : State) : (flashFill p n v s).free = s.free := rfl
@[simp] theorem addTGated_free (n : Nat) (s : State) : (addTGated n s).free = s.free := by
  unfold addTGated; split <;> rfl
@[simp] theorem storeSet_cfg (k : Bool) (p : Nat) (v : Byte) (s : State) : (storeSet k p v s).cfg = s.cfg := by
  cases k <;> rfl
@[simp] theorem flashFill_cfg (p n : Nat) (v : Byte) (s : State) : (flashFill p n v s).cfg = s.cfg := rfl
@[simp] theorem addTGated_cfg (n : Nat) (s : State) : (addTGated n s).cfg = s.cfg := by
  unfold addTGated; split <;> rfl
@[simp] theorem addTGated_mem (n : Nat) (s : State) : (addTGated n s).mem = s.mem := by
  unfold addTGated; split <;> rfl

@[simp] theorem addTGated_closed {n : Nat} {s : State} (h : s.cfg.timingGate = false) : addTGated n s = s := by
  simp [addTGated, h]

@[simp] theorem setSkipCount_regs (i n : Nat) (s : State) : (setSkipCount i n s).regs = s.regs := rfl
@[simp] theorem setSkipCount_ctl (i n : Nat) (s : State) : (setSkipCount i n s).ctl = s.ctl := rfl
@[simp] theorem setSkipCount_mem (i n : Nat) (s : State) : (setSkipCount i n s).mem = s.mem := rfl
@[simp] theorem setSkipCount_timer (i n : Nat) (s : State) : (setSkipCount i n s).timer = s.timer := rfl
@[simp] theorem setSkipCount_pio (i n : Nat) (s : State) : (setSkipCount i n s).pio = 
  { s.pio with intEntries := s.pio.intEntries.modify i fun e => { e with skipCount := n } } := rfl
@[simp] theorem setSkipCount_dbg (i n : Nat) (s : State) : (setSkipCount i n s).dbg = s.dbg := rfl
@[simp] theorem setSkipCount_log (i n : Nat) (s : State) : (setSkipCount i n s).log = s.log := rfl
@[simp] theorem setSkipCount_free (i n : Nat) (s : State) : (setSkipCount i n s).free = s.free := rfl
@[simp] theorem setSkipCount_cfg (i n : Nat) (s : State) : (setSkipCount i n s).cfg = s.cfg := rfl

@[simp] theorem setMarks_regs (ms : List BreakMark) (s : State) : (setMarks ms s).regs = s.regs := rfl
@[simp] theorem setMarks_ctl (ms : List BreakMark) (s : State) : (setMarks ms s).ctl = s.ctl := rfl
@[simp] theorem setMarks_mem (ms : List BreakMark) (s : State) : (setMarks ms s).mem = { s.mem with marks := ms } := rfl
@[simp] theorem setMarks_timer (ms : List BreakMark) (s : State) : (setMarks ms s).timer = s.timer := rfl
@[simp] theorem setMarks_pio (ms : List BreakMark) (s : State) : (setMarks ms s).pio = s.pio := rfl
@[simp] theorem setMarks_dbg (ms : List BreakMark) (s : State) : (setMarks ms s).dbg = s.dbg := rfl
@[simp] theorem setMarks_log (ms : List BreakMark) (s : State) : (setMarks ms s).log = s.log := rfl
@[simp] theorem setMarks_free (ms : List BreakMark) (s : State) : (setMarks ms s).free = s.free := rfl
@[simp] theorem setMarks_cfg (ms : List BreakMark) (s : State) : (setMarks ms s).cfg = s.cfg := rfl

@[simp] theorem endTransfer_regs (s : State) : (endTransfer s).regs = s.regs := rfl
@[simp] theorem endTransfer_ctl (s : State) : (endTransfer s).ctl = { s.ctl with input := false, output := false } := rfl
@[simp] theorem endTransfer_mem (s : State) : (endTransfer s).mem = s.mem := rfl
@[simp] theorem endTransfer_timer (s : State) : (endTransfer s).timer = s.timer := rfl
@[simp] theorem endTransfer_pio (s : State) : (endTransfer s).pio = s.pio := rfl
@[simp] theorem endTransfer_dbg (s : State) : (endTransfer s).dbg = s.dbg := rfl
@[simp] theorem endTransfer_log (s : State) : (endTransfer s).log = s.log := rfl
@[simp] theorem endTransfer_free (s : State) : (endTransfer s).free = s.free := rfl
@[simp] theorem endTransfer_cfg (s : State) : (endTransfer s).cfg = s.cfg := rfl

@[simp] theorem setDevices_regs (ds : List Device) (s : State) : (setDevices ds s).regs = s.regs := rfl
@[simp] theorem setDevices_ctl (ds : List Device) (s : State) : (setDevices ds s).ctl = s.ctl := rfl
@[simp] theorem setDevices_mem (ds : List Device) (s : State) : (setDevices ds s).mem = s.mem := rfl
@[simp] theorem setDevices_timer (ds : List Device) (s : State) : (setDevices ds s).timer = s.timer := rfl
@[simp] theorem setDevices_pio (ds : List Device) (s : State) : (setDevices ds s).pio = { s.pio with devices := ds } := rfl
@[simp] theorem setDevices_dbg (ds : List Device) (s : State) : (setDevices ds s).dbg = s.dbg := rfl
@[simp] theorem setDevices_log (ds : List Device) (s : State) : (setDevices ds s).log = s.log := rfl
@[simp] theorem setDevices_free (ds : List Device) (s : State) : (setDevices ds s).free = s.free := rfl
@[simp] theorem setDevices_cfg (ds : List Device) (s : State) : (setDevices ds s).cfg = s.cfg := rfl

@[simp] theorem setEntries_regs (es : List IntEntry) (s : State) : (setEntries es s).regs = s.regs := rfl
@[simp] theorem setEntries_ctl (es : List IntEntry) (s : State) : (setEntries es s).ctl = s.ctl := rfl
@[simp] theorem setEntries_mem (es : List IntEntry) (s : State) : (setEntries es s).mem = s.mem := rfl
@[simp] theorem setEntries_timer (es : List IntEntry) (s : State) : (setEntries es s).timer = s.timer := rfl
@[simp] theorem setEntries_pio (es : List IntEntry) (s : State) : (setEntries es s).pio = { s.pio with intEntries := es } := rfl
@[simp] theorem setEntries_dbg (es : List IntEntry) (s : State) : (setEntries es s).dbg = s.dbg := rfl
@[simp] theorem setEntries_log (es : List IntEntry) (s : State) : (setEntries es s).log = s.log := rfl
@[simp] theorem setEntries_free (es : List IntEntry) (s : State) : (setEntries es s).free = s.free := rfl
@[simp] theorem setEntries_cfg (es : List IntEntry) (s : State) : (setEntries es s).cfg = s.cfg := rfl

end Sys2Proof.Machine
end

