-- ==== Sys2Proof/Laws/Access.lean ====
section
/-! SUPPORT. What the byte accesses do where no agent interferes, and how effects compose. -/

namespace Sys2Proof.Machine

/-- `t` maps addresses as `s` does: only the contents of the stores may differ. -/
def sameMap (s t : State) : Prop :=
  t.mem = { s.mem with ram := t.mem.ram, flash := t.mem.flash } ∧ t.cfg = s.cfg

theorem sameMap_of_mem {s t : State} (h : t.mem = s.mem) (hc : t.cfg = s.cfg) : sameMap s t :=
  ⟨by rw [h], hc⟩

theorem sameMap.trans {s t u : State} (h : sameMap s t) (h' : sameMap t u) : sameMap s u := by
  refine ⟨?_, h'.2.trans h.2⟩
  have h1 := h'.1
  rw [h.1] at h1
  exact h1

section
variable {s t : State} (h : sameMap s t)
include h

theorem sameMap.normal : t.mem.normal = s.mem.normal := by rw [h.1]
theorem sameMap.view : t.mem.view = s.mem.view := by rw [h.1]
theorem sameMap.flashState : t.mem.flashState = s.mem.flashState := by rw [h.1]
theorem sameMap.marks : t.mem.marks = s.mem.marks := by rw [h.1]
theorem sameMap.remap27 : t.mem.remap27 = s.mem.remap27 := by rw [h.1]
theorem sameMap.remap28 : t.mem.remap28 = s.mem.remap28 := by rw [h.1]
theorem sameMap.flashLocked : t.mem.flashLocked = s.mem.flashLocked := by rw [h.1]
theorem sameMap.bootUnmapDone : t.mem.bootUnmapDone = s.mem.bootUnmapDone := by rw [h.1]

theorem sameMap.activeTable : activeTable t = activeTable s := by
  unfold Machine.activeTable; rw [h.view, h.normal, h.2]

theorem sameMap.slotOf (a : Word) : slotOf t a = slotOf s a := by unfold Machine.slotOf; rw [h.activeTable]

theorem sameMap.windowsOn : windowsOn t = windowsOn s := by unfold Machine.windowsOn; rw [h.view, h.2]

theorem sameMap.win27 (a : Word) : win27 t a = win27 s a := by
  unfold Machine.win27; rw [h.remap27, h.windowsOn, h.2]

theorem sameMap.win28 (a : Word) : win28 t a = win28 s a := by
  unfold Machine.win28; rw [h.remap28, h.windowsOn, h.2]

theorem sameMap.inWindow (a : Word) : inWindow t a = inWindow s a := by
  unfold Machine.inWindow; rw [h.win27, h.win28]

theorem sameMap.resolve (a : Word) : resolve t a = resolve s a := by
  unfold Machine.resolve Machine.shadowed; rw [h.win27, h.win28, h.slotOf, h.2]

theorem sameMap.decodedRead (a : Word) : decodedRead t a = decodedRead s a := by
  unfold Machine.decodedRead; rw [h.inWindow, h.slotOf, h.flashState]

theorem sameMap.markedFor (p : BreakMark → Bool) (c : Canon) : markedFor p c t = markedFor p c s := by
  unfold Machine.markedFor; rw [h.marks]

theorem sameMap.readable (a : Word) : readable t a = readable s a := by
  unfold Machine.readable; rw [h.resolve, h.decodedRead, h.markedFor, h.2]

theorem sameMap.writable (a : Word) : writable t a = writable s a := by
  unfold Machine.writable; rw [h.resolve, h.inWindow, h.slotOf, h.markedFor, h.2]

end

/-- A byte of a store after a write of one byte. -/
theorem storeGet_storeSet_same {s : State} (hr : s.mem.ram.wf = true) (hf : s.mem.flash.wf = true) (k : Bool) (p : Nat)
    (v : Byte) : storeGet (storeSet k p v s) k p = v := by
  cases k
  · exact Memory.get_set_same hf p v
  · exact Memory.get_set_same hr p v

theorem storeGet_storeSet_ne (s : State) {k k' : Bool} {p p' : Nat} (v : Byte) (h : (k, p) ≠ (k', p')) :
    storeGet (storeSet k p v s) k' p' = storeGet s k' p' := by
  cases k <;> cases k' <;> simp [storeGet, storeSet] at h ⊢
  · exact Memory.get_set_ne _ v fun e => h e.symm
  · exact Memory.get_set_ne _ v fun e => h e.symm

theorem storeGet_flashFill (s : State) (a n : Nat) (v : Byte) (k : Bool) (p : Nat) :
    storeGet (flashFill a n v s) k p = if k = false ∧ a ≤ p ∧ p < a + n then v else storeGet s k p := by
  cases k
  · simp [storeGet, flashFill, Memory.get_fill]
  · simp [storeGet, flashFill]

theorem sameMap_storeSet (k : Bool) (p : Nat) (v : Byte) (s : State) : sameMap s (storeSet k p v s) := by
  cases k <;> exact ⟨rfl, rfl⟩

theorem sameMap_addTGated (n : Nat) (s : State) : sameMap s (addTGated n s) := sameMap_of_mem (by simp) (by simp)

theorem storeGet_congr {s t : State} (h : t.mem = s.mem) (k : Bool) (p : Nat) : storeGet t k p = storeGet s k p := by
  unfold storeGet; rw [h]

@[simp] theorem andThen_ok {α β : Type} (v : α) (s : State) (k : α → State → Res β) : (Res.ok v s).andThen k = k v s := rfl
@[simp] theorem andThen_fault {α β : Type} (f : Fault) (k : α → State → Res β) : (Res.fault f).andThen k = .fault f := rfl
@[simp] theorem andThen_refused {α β : Type} (r : Refusal) (k : α → State → Res β) :
    (Res.refused r).andThen k = .refused r := rfl
/-- A sequence that goes through went through its first part. -/
theorem andThen_eq_ok {α β : Type} {x : Res α} {k : α → State → Res β} {w : β} {t : State} (h : x.andThen k = .ok w t) :
    ∃ v u, x = .ok v u ∧ k v u = .ok w t := by
  cases x with
  | ok v u => exact ⟨v, u, rfl, h⟩
  | fault f => cases h
  | refused r => cases h

@[simp] theorem finish_ok {α : Type} (v : α) (s : State) (n : Nat) : (Res.ok v s).finish n = .next (addT n s) := rfl
@[simp] theorem finishWith_ok {α : Type} (v : α) (s : State) (n : α → Nat) :
    (Res.ok v s).finishWith n = .next (addT (n v) s) := rfl

/-- The state a plain read leaves. -/
def afterRead (kind : AccessKind) (a : Word) (s : State) : State :=
  setBus (byteAt s a) (addTGated (delay s.cfg kind (resolve s a).1) (setDirection true false s))

/-- The state a plain write leaves. -/
def afterWrite (a : Word) (v : Byte) (s : State) : State :=
  setBus v (addTGated (delay s.cfg .write (resolve s a).1)
    (storeSet (resolve s a).1 (resolve s a).2 v (setDirection false true s)))

/-- A plain read returns the byte at the address and leaves `afterRead`. -/
theorem readByte_readable {s : State} {a : Word} (kind : AccessKind) (h : readable s a = true) :
    readByte kind a s = .ok (byteAt s a) (afterRead kind a s) := by
  simp only [readable, Bool.and_eq_true, Bool.not_eq_true'] at h
  obtain ⟨⟨h1, h2⟩, h3⟩ := h
  have hm : sameMap s (setDirection true false s) := sameMap_of_mem rfl rfl
  have hm' : sameMap s (addTGated (delay s.cfg kind (resolve s a).1) (setDirection true false s)) :=
    sameMap_of_mem (by simp) (by simp)
  unfold readByte
  simp only [hm.resolve, checkStore, setDirection_cfg, h1, if_true, andThen_ok, readValue, hm.decodedRead, h2]
  simp only [Bool.false_eq_true, if_false, andThen_ok, readBreak, setDirection_cfg, hm'.markedFor, h3]
  rfl

theorem memRead_readable {s : State} {a : Word} (h : readable s a = true) :
    memRead a s = .ok (byteAt s a) (afterRead .read a s) := readByte_readable .read h

/-- A plain write stores its byte and leaves `afterWrite`. -/
theorem memWrite_writable {s : State} {a : Word} (v : Byte) (h : writable s a = true) :
    memWrite a v s = .ok () (afterWrite a v s) := by
  simp only [writable, Bool.and_eq_true, Bool.not_eq_true'] at h
  obtain ⟨⟨⟨h1, h2⟩, h3⟩, h4⟩ := h
  obtain ⟨k, p, hr⟩ : ∃ k p, resolve s a = (k, p) := ⟨_, _, rfl⟩
  rw [hr] at h1 h2 h4
  dsimp only at h1 h2 h4
  subst h2
  have hm : sameMap s (setDirection false true s) := sameMap_of_mem rfl rfl
  have hm' : ∀ n, sameMap s (addTGated n (storeSet true p v (setDirection false true s))) :=
    fun n => (hm.trans (sameMap_storeSet _ _ _ _)).trans (sameMap_addTGated n _)
  unfold memWrite afterWrite
  simp only [hm.resolve, hr, checkStore, setDirection_cfg, h1, if_true, andThen_ok, writeEffect, hm.inWindow, hm.slotOf,
    h3, writeBreak, storeSet_cfg, (hm' _).markedFor, h4, Bool.false_eq_true, if_false]

@[simp] theorem afterRead_regs (k : AccessKind) (a : Word) (s : State) : (afterRead k a s).regs = s.regs := by
  simp [afterRead]
@[simp] theorem afterRead_mem (k : AccessKind) (a : Word) (s : State) : (afterRead k a s).mem = s.mem := by
  simp [afterRead]
@[simp] theorem afterRead_cfg (k : AccessKind) (a : Word) (s : State) : (afterRead k a s).cfg = s.cfg := by
  simp [afterRead]
@[simp] theorem afterWrite_regs (a : Word) (v : Byte) (s : State) : (afterWrite a v s).regs = s.regs := by
  simp [afterWrite]
@[simp] theorem afterWrite_cfg (a : Word) (v : Byte) (s : State) : (afterWrite a v s).cfg = s.cfg := by
  simp [afterWrite]

/-- Addresses that resolve to one byte have one offset: under the slot invariant a page starts at a multiple of its size. -/
theorem resolve_offset {s : State} (h : s.mem.normal.wf = true) (a : Word) : (resolve s a).2 % pageSize = offsetOf a := by
  have hs : (slotOf s a).wf = true := by
    simp only [BankTable.wf, Bool.and_eq_true] at h
    obtain ⟨⟨⟨⟨h0, h1⟩, h2⟩, h3⟩, h4⟩ := h
    have hp : ∀ (b : BankSlot) (p : Byte), (b.atPage p).wf = true := fun b p => by simp [BankSlot.wf, BankSlot.atPage]
    unfold slotOf activeTable BankTable.ofBank
    cases s.mem.view <;> simp only [bootDerive] <;> split <;> first | assumption | exact hp _ _
  have ho : offsetOf a < pageSize := Nat.mod_lt _ (by decide)
  simp only [BankSlot.wf, beq_iff_eq] at hs
  unfold resolve
  split
  · simp [Nat.mod_eq_of_lt ho]
  · split
    · simp [Nat.mod_eq_of_lt ho]
    · split
      · simp only [Nat.mul_add_mod_self_right, Nat.mod_eq_of_lt ho]
      · simp only [hs, Nat.mul_add_mod_self_right, Nat.mod_eq_of_lt ho]

/-- Two consecutive addresses never name one byte. -/
theorem resolve_succ_ne {s : State} (h : s.mem.normal.wf = true) (a : Word) : resolve s (a + 1) ≠ resolve s a := by
  intro e
  have h1 := resolve_offset h (a + 1)
  rw [e, resolve_offset h a] at h1
  have h2 : offsetOf (a + 1) = (a.toNat + 1) % 65536 % 16384 := by simp [offsetOf, BitVec.toNat_add]
  rw [h2] at h1
  unfold offsetOf at h1
  omega

namespace Effect

/-- Nothing happened. -/
theorem refl (s : State) : Effect s s s.regs [] 0 :=
  ⟨rfl, by simp, by simp, rfl, rfl, ⟨rfl, rfl, rfl⟩, ⟨rfl, rfl⟩, fun _ => rfl⟩

variable {s t u : State} {g : Regs} {ws ws' : List (Word × Byte)} {n m : Nat}

theorem same (h : Effect s t g ws n) : sameMap s t := ⟨h.mapping, h.model.2⟩

/-- Then the registers change. -/
theorem thenRegs (h : Effect s t g ws n) (k : Regs → Regs) : Effect s (onRegs k t) (k g) ws n :=
  ⟨by rw [← h.regs]; rfl, h.stored, h.kept, h.mapping, h.control, h.agents, h.model, h.time⟩

/-- Then T-states pass. -/
theorem thenT (h : Effect s t g ws n) (m : Nat) : Effect s (addT m t) g ws (n + m) :=
  ⟨h.regs, h.stored, h.kept, h.mapping, h.control, h.agents, h.model, fun hg => by
    simp only [addT_timer]; rw [h.time hg, Nat.add_assoc]⟩

/-- Then another effect, whose stores leave the bytes already stored alone. -/
theorem trans {g' : Regs} (h : Effect s t g ws n) (h' : Effect t u g' ws' m)
    (hd : ∀ w ∈ ws, ∀ w' ∈ ws', resolve s w'.1 ≠ resolve s w.1) : Effect s u g' (ws ++ ws') (n + m) := by
  have hm := h.same
  refine ⟨h'.regs, ?_, ?_, (hm.trans h'.same).1, ?_, ?_, ?_, ?_⟩
  · intro w hw
    rcases List.mem_append.mp hw with hw | hw
    · rw [← h.stored w hw]
      unfold byteAt
      rw [h'.same.resolve]
      exact h'.kept _ _ fun w' hw' => by
        rw [hm.resolve, hm.resolve]; exact hd w hw w' hw'
    · exact h'.stored w hw
  · intro k p hk
    rw [h'.kept k p fun w hw => by rw [hm.resolve]; exact hk w (List.mem_append_right _ hw)]
    exact h.kept k p fun w hw => hk w (List.mem_append_left _ hw)
  · rw [h'.control, h.control]
  · exact ⟨h'.agents.1.trans h.agents.1, h'.agents.2.1.trans h.agents.2.1, h'.agents.2.2.trans h.agents.2.2⟩
  · exact ⟨h'.model.1.trans h.model.1, h'.model.2.trans h.model.2⟩
  · intro hg
    rw [h'.time (by rw [h.model.2]; exact hg), h.time hg, Nat.add_assoc]

/-- A byte that was not stored to reads as before. -/
theorem byteAt_eq (h : Effect s t g ws n) (a : Word) (ha : ∀ w ∈ ws, resolve s w.1 ≠ resolve s a) :
    byteAt t a = byteAt s a := by
  unfold byteAt; rw [h.same.resolve]; exact h.kept _ _ ha

/-- A plain read. -/
theorem read (s : State) (k : AccessKind) (a : Word) : Effect s (afterRead k a s) s.regs [] 0 := by
  refine ⟨by simp, by simp, fun kk p _ => storeGet_congr (by simp) kk p, by simp, ?_, ?_, ?_, ?_⟩
  · simp [afterRead]
  · simp [afterRead]
  · simp [afterRead]
  · intro hg; simp [afterRead, addTGated, hg]

/-- A plain write. -/
theorem write {s : State} (hr : s.mem.ram.wf = true) (hf : s.mem.flash.wf = true) (a : Word) (v : Byte) :
    Effect s (afterWrite a v s) s.regs [(a, v)] 0 := by
  have hm : sameMap s (afterWrite a v s) :=
    (sameMap_of_mem (t := setDirection false true s) rfl rfl).trans ((sameMap_storeSet _ _ _ _).trans
      ((sameMap_addTGated _ _).trans (sameMap_of_mem rfl rfl)))
  have hg : ∀ k p, storeGet (afterWrite a v s) k p
      = storeGet (storeSet (resolve s a).1 (resolve s a).2 v (setDirection false true s)) k p :=
    fun k p => storeGet_congr (by simp [afterWrite]) k p
  refine ⟨by simp, ?_, ?_, hm.1, ?_, ?_, ?_, ?_⟩
  · intro w hw
    rw [List.mem_singleton.mp hw]
    unfold byteAt
    rw [hm.resolve, hg]
    exact storeGet_storeSet_same (s := setDirection false true s) hr hf _ _ _
  · intro k p hk
    rw [hg]
    exact storeGet_storeSet_ne _ v (hk (a, v) List.mem_cons_self)
  · simp [afterWrite]
  · simp [afterWrite]
  · simp [afterWrite]
  · intro hg; simp [afterWrite, addTGated, hg]

end Effect

end Sys2Proof.Machine
end

