-- ==== Sys2Proof/Laws/Bits.lean ====
section
/-! SUPPORT. The small lemmas of the byte halves of a word, of the flag byte, and of the register file. -/

namespace Sys2Proof

theorem getLsbD_join (h l : Byte) (i : Nat) :
    (join h l).getLsbD i = if i < 8 then l.getLsbD i else h.getLsbD (i - 8) := by
  change (h ++ l : BitVec (8 + 8)).getLsbD i = _
  rw [BitVec.getLsbD_append]

@[simp] theorem hi_join (h l : Byte) : hi (join h l) = h := by
  apply BitVec.eq_of_getLsbD_eq
  intro i hi'
  simp [hi, getLsbD_join, hi']

@[simp] theorem lo_join (h l : Byte) : lo (join h l) = l := by
  apply BitVec.eq_of_getLsbD_eq
  intro i hi'
  simp [lo, getLsbD_join, hi']

@[simp] theorem join_hi_lo (v : Word) : join (hi v) (lo v) = v := by
  apply BitVec.eq_of_getLsbD_eq
  intro i hi'
  rw [getLsbD_join]
  by_cases h : i < 8
  · simp [lo, h]
  · have : i - 8 < 8 := by omega
    have e : 8 + (i - 8) = i := by omega
    simp [hi, h, this, e]

namespace Machine

@[simp] theorem Flags.ofByte_byte (k : Flags) : Flags.ofByte k.byte = k := by
  rcases k with ⟨s, z, y, h, x, pv, n, c⟩
  revert s z y h x pv n c
  decide

@[simp] theorem Flags.byte_ofByte (f : Byte) : (Flags.ofByte f).byte = f := by
  revert f
  decide

/-- The parity flag in terms of the number of set bits. -/
theorem parity_cpop (v : Byte) : parity v = (v.cpop.toNat % 2 == 0) := by
  revert v
  decide

@[simp] theorem Regs.flags_setFlags (k : Flags) (g : Regs) : (g.setFlags k).flags = k := Flags.ofByte_byte k
@[simp] theorem Regs.bc_setBc (v : Word) (g : Regs) : (g.setBc v).bc = v := join_hi_lo v
@[simp] theorem Regs.de_setDe (v : Word) (g : Regs) : (g.setDe v).de = v := join_hi_lo v
@[simp] theorem Regs.hl_setHl (v : Word) (g : Regs) : (g.setHl v).hl = v := join_hi_lo v
@[simp] theorem Regs.af_setAf (v : Word) (g : Regs) : (g.setAf v).af = v := join_hi_lo v
@[simp] theorem Regs.getPair_setPair (p : Pair) (v : Word) (g : Regs) : (g.setPair p v).getPair p = v := by
  cases p <;> simp [getPair, setPair]
@[simp] theorem Regs.getQPair_setQPair (q : QPair) (v : Word) (g : Regs) : (g.setQPair q v).getQPair q = v := by
  cases q <;> simp [getQPair, setQPair]
@[simp] theorem Regs.getXY_setXY (x : Index) (v : Word) (g : Regs) : (g.setXY x v).getXY x = v := by cases x <;> rfl
@[simp] theorem Regs.get8_set8 (r : Reg8) (v : Byte) (g : Regs) : (g.set8 r v).get8 r = v := by cases r <;> rfl

theorem Regs.get8_set8_ne {r q : Reg8} (h : q ≠ r) (v : Byte) (g : Regs) : (g.set8 r v).get8 q = g.get8 q := by
  cases r <;> cases q <;> first | rfl | exact absurd rfl h

end Machine

end Sys2Proof
end

