-- ==== Sys2Proof/Laws/Closed.lean ====
section
/-! SUPPORT. Everything an instruction can do, said once: a relation between states that the accesses, the register writes
and the passing of time all respect is respected by `exec`. -/

namespace Sys2Proof.Machine

/-- The registers that only named instructions write. -/
def Regs.special (g : Regs) : Byte × Byte × Bool × Bool × IntMode × Word × Word × Word × Word :=
  (g.i, g.r, g.iff1, g.iff2, g.im, g.afAlt, g.bcAlt, g.deAlt, g.hlAlt)

section
variable (g : Regs)

@[simp] theorem Regs.special_set8 (r : Reg8) (v : Byte) : (g.set8 r v).special = g.special := by cases r <;> rfl
@[simp] theorem Regs.special_setBc (v : Word) : (g.setBc v).special = g.special := rfl
@[simp] theorem Regs.special_setDe (v : Word) : (g.setDe v).special = g.special := rfl
@[simp] theorem Regs.special_setHl (v : Word) : (g.setHl v).special = g.special := rfl
@[simp] theorem Regs.special_setAf (v : Word) : (g.setAf v).special = g.special := rfl
@[simp] theorem Regs.special_setPair (p : Pair) (v : Word) : (g.setPair p v).special = g.special := by cases p <;> rfl
@[simp] theorem Regs.special_setQPair (p : QPair) (v : Word) : (g.setQPair p v).special = g.special := by cases p <;> rfl
@[simp] theorem Regs.special_setXY (x : Index) (v : Word) : (g.setXY x v).special = g.special := by cases x <;> rfl
@[simp] theorem Regs.special_setHalf (x : Index) (k : Half) (v : Byte) : (g.setHalf x k v).special = g.special := by
  cases x <;> cases k <;> rfl
@[simp] theorem Regs.special_setUnderPrefix (x : Index) (p : Reg8) (v : Byte) :
    (g.setUnderPrefix x p v).special = g.special := by cases p <;> simp [Regs.setUnderPrefix]
@[simp] theorem Regs.special_setFlags (k : Flags) : (g.setFlags k).special = g.special := rfl
@[simp] theorem Regs.special_blockLoadEnd (w : Word) (t : Byte) : (blockLoadEnd w t g).special = g.special := rfl
@[simp] theorem Regs.special_blockCompareEnd (w : Word) (t : Byte) : (blockCompareEnd w t g).special = g.special := rfl

end

/-- The instruction writes none of the special registers, and no flag of the execution state. -/
def ordinary (i : Instr) : Bool :=
  match i with
  | .ldIA | .ldRegRA | .ei | .di | .reti | .retn | .retnCopy _ => false
  | .im0 | .im1 | .im2 | .im0Copy _ | .im1Copy | .im2Copy => false
  | .exAfAf | .exx | .halt | .prefixDd | .prefixFd | .prefixEd => false
  | _ => true

/-- Whenever the sequence of primitives goes through, it leads from `s` to a related state. -/
def Leads (R : State → State → Prop) (s : State) {α : Type} (x : Res α) : Prop := ∀ v t, x = .ok v t → R s t

/-- Whenever the instruction completes, it leads from `s` to a related state. -/
def Ends (R : State → State → Prop) (s : State) (o : Outcome) : Prop := ∀ t, o = .next t → R s t

/-- The relation allows everything an ordinary instruction can do; `w` says whether that includes writing memory. -/
structure Allows (R : State → State → Prop) (w : Bool) : Prop where
  refl : ∀ s, R s s
  trans : ∀ {s t u}, R s t → R t u → R s u
  regs : ∀ s g, g.special = s.regs.special → R s { s with regs := g }
  time : ∀ s n, R s (addT n s)
  free : ∀ s, R s (drawFree s).2
  read : ∀ a s, Leads R s (memRead a s)
  write : w = true → ∀ a v s, Leads R s (memWrite a v s)
  portIn : ∀ p s, Leads R s (portIn p s)
  portOut : ∀ p v s, Leads R s (portOut p v s)

namespace Leads

variable {R : State → State → Prop} {w : Bool} {α β : Type} {s : State}

theorem ok {t : State} (h : R s t) (v : α) : Leads R s (.ok v t) := fun _ _ e => by cases e; exact h

theorem seq (ht : ∀ {s t u : State}, R s t → R t u → R s u) {x : Res α} {k : α → State → Res β} (h : Leads R s x)
    (hk : ∀ v t, Leads R t (k v t)) : Leads R s (x.andThen k) := by
  intro v t e
  cases x with
  | ok a u => exact ht (h a u rfl) (hk a u v t e)
  | fault f => cases e
  | refused r => cases e

theorem andThen (hR : Allows R w) {x : Res α} {k : α → State → Res β} (h : Leads R s x)
    (hk : ∀ v t, Leads R t (k v t)) : Leads R s (x.andThen k) :=
  seq (R := R) (fun h h' => hR.trans h h') h hk

theorem finishWith (hR : Allows R w) {x : Res α} (h : Leads R s x) (n : α → Nat) : Ends R s (x.finishWith n) := by
  intro t e
  cases x with
  | ok a u => cases e; exact hR.trans (h a u rfl) (hR.time _ _)
  | fault f => cases e
  | refused r => cases e

theorem finish (hR : Allows R w) {x : Res α} (h : Leads R s x) (n : Nat) : Ends R s (x.finish n) := h.finishWith hR _

/-- A change of registers, then a sequence. -/
theorem after (hR : Allows R w) {x : Res α} {g : Regs} (hg : g.special = s.regs.special)
    (h : Leads R { s with regs := g } x) : Leads R s x := fun v t e => hR.trans (hR.regs s g hg) (h v t e)

/-- A sequence, then a change of registers. -/
theorem thenRegs (hR : Allows R w) {x : Res α} (h : Leads R s x) {k : α → State → Regs} {f : α → State → β}
    (hk : ∀ v t, (k v t).special = t.regs.special) :
    Leads R s (x.andThen fun v t => .ok (f v t) { t with regs := k v t }) :=
  h.andThen hR fun v t => ok (hR.regs _ _ (hk v t)) _

end Leads

namespace Allows

variable {R : State → State → Prop} {w : Bool} (hR : Allows R w) {s : State}
include hR

theorem done (n : Nat) {g : Regs} (h : g.special = s.regs.special) : Ends R s (Machine.done n { s with regs := g }) := by
  intro t e; cases e; exact hR.trans (hR.regs s g h) (hR.time _ _)

theorem doneSame (n : Nat) : Ends R s (Machine.done n s) := hR.done n rfl

theorem loadFrom (a : Word) {k : Byte → Regs → Regs} (hk : ∀ v g, (k v g).special = g.special) :
    Leads R s (loadFrom a k s) := (hR.read a s).thenRegs hR fun v t => hk v t.regs

theorem memRead16 (a : Word) (s : State) : Leads R s (memRead16 a s) :=
  (hR.read a s).andThen hR fun _ t => (hR.read (a + 1) t).andThen hR fun _ u => Leads.ok (hR.refl u) _

theorem loadWordFrom (a : Word) {k : Word → Regs → Regs} (hk : ∀ v g, (k v g).special = g.special) :
    Leads R s (loadWordFrom a k s) := (hR.memRead16 a s).thenRegs hR fun v t => hk v t.regs

theorem pop16 (s : State) : Leads R s (pop16 s) := by
  refine (hR.read _ s).andThen hR fun _ t => ?_
  refine Leads.after hR (g := { t.regs with sp := t.regs.sp + 1 }) rfl ?_
  exact (hR.read _ _).thenRegs hR (k := fun _ u => { u.regs with sp := u.regs.sp + 1 }) fun _ _ => rfl

theorem popInto {k : Word → Regs → Regs} (hk : ∀ v g, (k v g).special = g.special) : Leads R s (popInto k s) :=
  (hR.pop16 s).thenRegs hR fun v t => hk v t.regs

theorem returnTo (s : State) : Leads R s (returnTo s) :=
  (hR.pop16 s).thenRegs hR (k := fun v u => { u.regs with pc := v }) fun _ _ => rfl

theorem aluFrom (op : AluOp) (a : Word) : Leads R s (aluFrom op a s) :=
  (hR.read a s).thenRegs hR (k := fun v u => Regs.setFlags (aluResult op u.regs.a v (carryIn u)).2
    { u.regs with a := (aluResult op u.regs.a v (carryIn u)).1 }) fun _ _ => rfl

theorem blockCompare (n : Word) (s : State) : Leads R s (blockCompare n s) :=
  (hR.read _ s).thenRegs hR (k := fun v u => blockCompareEnd n v u.regs) fun _ _ => rfl

theorem bitIndexed (b : BitVec 3) (a : Word) : Leads R s (bitIndexed b a s) :=
  (hR.read a s).thenRegs hR (k := fun v u => Regs.setFlags
    (bitFlags b v (a.getLsbD 13) (a.getLsbD 11) u.regs.flags) u.regs) fun _ _ => rfl

theorem bitAtHl (b : BitVec 3) : Leads R s (bitAtHl b s) :=
  (hR.read _ s).andThen hR fun v t => Leads.ok (hR.trans (hR.free t) (hR.regs (drawFree t).2
    (Regs.setFlags (bitFlags b v ((drawFree t).1.getLsbD 5) ((drawFree t).1.getLsbD 3) t.regs.flags) t.regs) rfl)) _

theorem portInFlags (s : State) : Leads R s (portInFlags s) :=
  (hR.portIn _ s).thenRegs hR (k := fun v u => Regs.setFlags (parityFlags v u.regs.flags) u.regs) fun _ _ => rfl

theorem blockIoEnd (s : State) : R s (blockIoEnd s) :=
  hR.trans (hR.free s) (hR.regs (drawFree s).2 (Regs.setFlags (blockIoFlags s.regs.b (drawFree s).1) s.regs) rfl)

theorem blockOut (n : Word) (s : State) : Leads R s (blockOut n s) := by
  refine (hR.read _ s).andThen hR fun v t => ?_
  refine Leads.after hR (g := { t.regs with b := t.regs.b - 1 }) rfl ?_
  refine (hR.portOut _ v _).andThen hR fun _ u => Leads.ok ?_ _
  exact hR.trans (hR.regs u (u.regs.setHl (u.regs.hl + n)) rfl) (hR.blockIoEnd _)

theorem repeatWhile {x : Res Unit} (h : Leads R s x) (again : Regs → Bool) : Ends R s (repeatWhile again x) := by
  refine Leads.finishWith hR (h.andThen hR fun _ t => Leads.ok ?_ _) _
  split
  · exact hR.regs t _ rfl
  · exact hR.refl t

theorem jumpIf (b : Bool) (e : Byte) : Ends R s (jumpIf b e s) := by
  unfold Machine.jumpIf; split
  · exact hR.done _ rfl
  · exact hR.doneSame _

variable (hw : w = true)
include hw

theorem write2 (a b : Word) (v u : Byte) (s : State) :
    Leads R s ((memWrite a v s).andThen fun _ t => memWrite b u t) :=
  (hR.write hw a v s).andThen hR fun _ t => hR.write hw b u t

theorem storeHlTo (a : Word) : Leads R s (storeHlTo a s) :=
  (hR.write hw _ _ s).andThen hR fun _ t => hR.write hw _ _ t

theorem push16 (v : Word) (s : State) : Leads R s (push16 v s) := by
  refine Leads.after hR (g := { s.regs with sp := s.regs.sp - 1 }) rfl ?_
  refine (hR.write hw _ (hi v) _).andThen hR fun _ t => ?_
  exact Leads.after hR (g := { t.regs with sp := t.regs.sp - 1 }) rfl (hR.write hw _ (lo v) _)

theorem callTo (a : Word) (s : State) : Leads R s (callTo a s) :=
  (hR.push16 hw _ s).thenRegs hR (k := fun _ u => { u.regs with pc := a }) fun _ _ => rfl

theorem exchangeTop (get : Regs → Word) (s : State) : Leads R s (exchangeTop get s) :=
  (hR.read _ s).andThen hR fun _ t => (hR.read _ t).andThen hR fun _ u => (hR.write hw _ _ u).andThen hR fun _ x =>
    (hR.write hw _ _ x).andThen hR fun _ y => Leads.ok (hR.refl y) _

theorem modifyFlagsFirst (loc : State → Word) (k : Byte → Flags → Byte × Flags) :
    Leads R s (modifyFlagsFirst loc k s) :=
  (hR.read _ s).andThen hR fun v t =>
    Leads.after hR (g := Regs.setFlags (k v t.regs.flags).2 t.regs) rfl (hR.write hw _ _ _)

theorem rotateMem (op : RotOp) (loc : State → Word) (s : State) : Leads R s (rotateMem op loc s) :=
  (hR.read _ s).andThen hR fun v t => (hR.write hw _ _ t).thenRegs hR
    (k := fun _ u => Regs.setFlags (rotFlags (rotResult op v (carryIn t)).1 (rotResult op v (carryIn t)).2) u.regs)
    fun _ _ => rfl

theorem changeBitMem (k : Byte → Byte) (loc : State → Word) (s : State) : Leads R s (changeBitMem k loc s) :=
  (hR.read _ s).andThen hR fun _ t => (hR.write hw _ _ t).andThen hR fun _ u => Leads.ok (hR.refl u) _

omit hw in
theorem copyInto {x : Res Byte} (h : Leads R s x) (r : Reg8) : Leads R s (copyInto r x) :=
  h.thenRegs hR (k := fun v u => u.regs.set8 r v) fun v u => Regs.special_set8 u.regs r v

theorem rotateDigits (k : Byte → Byte → Byte × Byte) : Leads R s (rotateDigits k s) :=
  (hR.read _ s).andThen hR fun v t => (hR.write hw _ _ t).thenRegs hR
    (k := fun _ u => Regs.setFlags (parityFlags (k u.regs.a v).2 u.regs.flags) { u.regs with a := (k u.regs.a v).2 })
    fun _ _ => rfl

theorem blockLoad (n : Word) (s : State) : Leads R s (blockLoad n s) :=
  (hR.read _ s).andThen hR fun v t => (hR.write hw _ _ t).thenRegs hR (k := fun _ u => blockLoadEnd n v u.regs)
    fun _ _ => rfl

theorem blockIn (n : Word) (s : State) : Leads R s (blockIn n s) := by
  refine (hR.portIn _ s).andThen hR fun v t => (hR.write hw _ _ t).andThen hR fun _ u => Leads.ok ?_ _
  exact hR.trans (hR.regs u { u.regs.setHl (u.regs.hl + n) with b := u.regs.b - 1 } rfl) (hR.blockIoEnd _)

omit hw in
/-- An ordinary instruction that completes leads to a related state. -/
theorem exec {i : Instr} (hi : ordinary i = true) (hw : storesMemory i = true → w = true) (s : State) :
    Ends R s (exec i s) := by
  cases i
  case nop | nopEd7 | nopEdLow | nopEdHigh | nopEdMid | nopEdBlock =>
    exact hR.doneSame _
  case exAfAf | halt | exx | di | ei | prefixDd | prefixEd | prefixFd | retn | reti | retnCopy | im0 | im1 | im2 |
    im0Copy | im1Copy | im2Copy | ldIA | ldRegRA =>
    exact Bool.noConfusion hi
  case djnz =>
    rename_i e
    let u := { s with regs := { s.regs with b := s.regs.b - 1 } }
    change Ends R s (if u.regs.b != 0 then Machine.done 13 (relJump e u) else Machine.done 8 u)
    split
    · exact hR.done _ rfl
    · exact hR.done _ rfl
  case jr | ldHlNn | addHlSs | incHl | decHl | rlca | rrca | rla | rra | daa | cpl | scf | ccf | addAR | addAIxh |
    addAIxl | addAIyh | addAIyl | addAN | adcAR | adcAIxh | adcAIxl | adcAIyh | adcAIyl | adcAN | subAR | subAIxh |
    subAIxl | subAIyh | subAIyl | subAN | sbcAR | sbcAIxh | sbcAIxl | sbcAIyh | sbcAIyl | sbcAN | andAR | andAIxh |
    andAIxl | andAIyh | andAIyl | andAN | xorAR | xorAIxh | xorAIxl | xorAIyh | xorAIyl | xorAN | orAR | orAIxh | orAIxl
    | orAIyh | orAIyl | orAN | cpAR | cpAIxh | cpAIxl | cpAIyh | cpAIyl | cpAN | jpMemHl | jpMemIx | jpMemIy | ldSpHl |
    ldSpIx | ldSpIy | jpNn | exDeHl | bitBR | sbcHlSs | adcHlSs | neg | negCopy | ldAI | ldARegR =>
    exact hR.done _ rfl
  case jrNz | jrZ | jrNc | jrC =>
    exact hR.jumpIf _ _
  case ldDdNn | ldIxNn | ldIyNn | addIxPp | addIyRr | incSs | incIx | incIy | decSs | decIx | decIy | incR | incIxh |
    incIxl | incIyh | incIyl | decR | decIxh | decIxl | decIyh | decIyl | ldRN | ldIxhN | ldIxlN | ldIyhN | ldIylN |
    ldRR | ldIxHalfP | ldPIxHalf | ldIyHalfP | ldPIyHalf | rlcR | rrcR | rlR | rrR | slaR | sraR | sllR | srlR | resBR |
    setBR =>
    exact hR.done _ (by simp [incWith, decWith])
  case ldMemBcA | ldMemDeA | ldMemNnA | ldMemHlN | ldMemIxN | ldMemIyN | ldMemHlR | ldMemIxR | ldMemIyR =>
    exact Leads.finish hR (hR.write (hw rfl) _ _ s) _
  case ldMemNnHl =>
    exact Leads.finish hR (hR.storeHlTo (hw rfl) _) _
  case ldMemNnIx | ldMemNnIy | ldMemNnDd =>
    exact Leads.finish hR (hR.write2 (hw rfl) _ _ _ _ s) _
  case ldAMemBc | ldAMemDe | ldAMemNn | ldRMemHl | ldRMemIx | ldRMemIy =>
    exact Leads.finish hR (hR.loadFrom _ (by simp)) _
  case ldHlMemNn =>
    exact Leads.finish hR ((hR.loadFrom _ (by simp)).andThen hR fun _ _ => hR.loadFrom _ (by simp)) _
  case ldIxMemNn | ldIyMemNn | ldDdMemNn =>
    exact Leads.finish hR (hR.loadWordFrom _ (by simp)) _
  case incMemHl | incMemIx | incMemIy | decMemHl | decMemIx | decMemIy =>
    exact Leads.finish hR (hR.modifyFlagsFirst (hw rfl) _ _) _
  case addAMemHl | addAMemIx | addAMemIy | adcAMemHl | adcAMemIx | adcAMemIy | subAMemHl | subAMemIx | subAMemIy |
    sbcAMemHl | sbcAMemIx | sbcAMemIy | andAMemHl | andAMemIx | andAMemIy | xorAMemHl | xorAMemIx | xorAMemIy | orAMemHl
    | orAMemIx | orAMemIy | cpAMemHl | cpAMemIx | cpAMemIy =>
    exact Leads.finish hR (hR.aluFrom _ _) _
  case retCc =>
    rename_i cc
    change Ends R s (if condHolds cc s.regs.f then _ else _)
    split
    · exact Leads.finish hR (hR.returnTo s) _
    · exact hR.doneSame _
  case popQq | popHl | popIx | popIy =>
    exact Leads.finish hR (hR.popInto (by simp)) _
  case ret =>
    exact Leads.finish hR (hR.returnTo s) _
  case jpCcNn =>
    rename_i cc nn
    change Ends R s (Machine.done 10 (if condHolds cc s.regs.f then setPc nn s else s))
    split
    · exact hR.done _ rfl
    · exact hR.doneSame _
  case prefixCb | prefixXyCb =>
    exact fun t e => Host.Outcome.next.inj e ▸ hR.refl s
  case outNA | outCR | outC0 =>
    exact Leads.finish hR (hR.portOut _ _ s) _
  case inAN =>
    exact Leads.finish hR ((hR.portIn _ s).thenRegs hR (by simp)) _
  case exMemSpHl | exMemSpIx | exMemSpIy =>
    exact Leads.finish hR ((hR.exchangeTop (hw rfl) _ s).thenRegs hR (by simp)) _
  case callCcNn =>
    rename_i cc nn
    change Ends R s (if condHolds cc s.regs.f then _ else _)
    split
    · exact Leads.finish hR (hR.callTo (hw rfl) _ s) _
    · exact hR.doneSame _
  case pushQq | pushHl | pushIx | pushIy =>
    exact Leads.finish hR (hR.push16 (hw rfl) _ s) _
  case callNn | rst =>
    exact Leads.finish hR (hR.callTo (hw rfl) _ s) _
  case rlcMemHl | rrcMemHl | rlMemHl | rrMemHl | slaMemHl | sraMemHl | sllMemHl | srlMemHl | rlcMemIx | rrcMemIx |
    rlMemIx | rrMemIx | slaMemIx | sraMemIx | sllMemIx | srlMemIx | rlcMemIy | rrcMemIy | rlMemIy | rrMemIy | slaMemIy |
    sraMemIy | sllMemIy | srlMemIy =>
    exact Leads.finish hR (hR.rotateMem (hw rfl) _ _ s) _
  case bitBMemHl =>
    exact Leads.finish hR (hR.bitAtHl _) _
  case resBMemHl | setBMemHl | resBMemIx | setBMemIx | resBMemIy | setBMemIy =>
    exact Leads.finish hR (hR.changeBitMem (hw rfl) _ _ s) _
  case rlcMemIxR | rrcMemIxR | rlMemIxR | rrMemIxR | slaMemIxR | sraMemIxR | sllMemIxR | srlMemIxR | rlcMemIyR |
    rrcMemIyR | rlMemIyR | rrMemIyR | slaMemIyR | sraMemIyR | sllMemIyR | srlMemIyR =>
    exact Leads.finish hR (hR.copyInto (hR.rotateMem (hw rfl) _ _ s) _) _
  case bitBMemIx | bitBMemIxCopy | bitBMemIy | bitBMemIyCopy =>
    exact Leads.finish hR (hR.bitIndexed _ _) _
  case resBMemIxR | setBMemIxR | resBMemIyR | setBMemIyR =>
    exact Leads.finish hR (hR.copyInto (hR.changeBitMem (hw rfl) _ _ s) _) _
  case inRC =>
    exact Leads.finish hR ((hR.portInFlags s).thenRegs hR (by simp)) _
  case inFC =>
    exact Leads.finish hR (hR.portInFlags s) _
  case rrd | rld =>
    exact Leads.finish hR (hR.rotateDigits (hw rfl) _) _
  case ldi | ldd =>
    exact Leads.finish hR (hR.blockLoad (hw rfl) _ s) _
  case cpi | cpd =>
    exact Leads.finish hR (hR.blockCompare _ s) _
  case ini | ind =>
    exact Leads.finish hR (hR.blockIn (hw rfl) _ s) _
  case outi | outd =>
    exact Leads.finish hR (hR.blockOut _ s) _
  case ldir | lddr =>
    exact hR.repeatWhile (hR.blockLoad (hw rfl) _ s) _
  case cpir | cpdr =>
    exact hR.repeatWhile (hR.blockCompare _ s) _
  case inir | indr =>
    exact hR.repeatWhile (hR.blockIn (hw rfl) _ s) _
  case otir | otdr =>
    exact hR.repeatWhile (hR.blockOut _ s) _

end Allows

end Sys2Proof.Machine
end

