-- ==== Sys2Proof/Laws/Completes.lean ====
section
/-! SUPPORT. What each shared operation of the instructions does where its accesses are plain, as an effect on the whole
state: the lemmas that a completion statement cites. -/

namespace Sys2Proof.Machine

/-- What `Consistent` says of the stores and the bank table. -/
theorem Consistent.parts {s : State} (h : Consistent s = true) :
    s.mem.ram.wf = true ∧ s.mem.flash.wf = true ∧ s.mem.normal.wf = true := by
  simp only [Consistent, Bool.and_eq_true] at h
  exact ⟨h.1.1.1.1.1, h.1.1.1.1.2, h.1.1.1.2⟩

/-- The sequence of primitives `x`, begun in `s`, gives `v` and has this effect, and keeps canonical stores canonical. -/
def Does {α : Type} (s : State) (x : Res α) (v : α) (g : Regs) (ws : List (Word × Byte)) (n : Nat) : Prop :=
  ∃ t, x = .ok v t ∧ Effect s t g ws n ∧
    (s.mem.ram.wf = true → t.mem.ram.wf = true) ∧ (s.mem.flash.wf = true → t.mem.flash.wf = true)

namespace Does

variable {α β : Type} {s : State} {g g' : Regs} {ws ws' : List (Word × Byte)} {n m : Nat} {v : α} {w : β}

/-- Doing nothing. -/
theorem pure (s : State) (v : α) : Does s (.ok v s) v s.regs [] 0 := ⟨s, rfl, Effect.refl s, id, id⟩

/-- Changing registers. -/
theorem regs (s : State) (k : Regs → Regs) (v : α) : Does s (.ok v (onRegs k s)) v (k s.regs) [] 0 :=
  ⟨_, rfl, (Effect.refl s).thenRegs k, id, id⟩

/-- A plain read. -/
theorem read {a : Word} (h : readable s a = true) : Does s (memRead a s) (byteAt s a) s.regs [] 0 :=
  ⟨_, memRead_readable h, Effect.read s .read a, by simp, by simp⟩

/-- A plain write. -/
theorem write {a : Word} (hr : s.mem.ram.wf = true) (hf : s.mem.flash.wf = true) (h : writable s a = true) (v : Byte) :
    Does s (memWrite a v s) () s.regs [(a, v)] 0 := by
  refine ⟨_, memWrite_writable v h, Effect.write hr hf a v, fun _ => ?_, fun _ => ?_⟩
  all_goals
    simp only [afterWrite, setBus_mem, addTGated_mem]
    cases (resolve s a).1
    · first | exact hr | exact Memory.wf_set hf _ _
    · first | exact hf | exact Memory.wf_set hr _ _

/-- One sequence after another; the later stores leave the bytes of the earlier ones alone. -/
theorem andThen {x : Res α} {k : α → State → Res β} (h : Does s x v g ws n)
    (hk : ∀ t, Effect s t g ws n → (s.mem.ram.wf = true → t.mem.ram.wf = true) →
      (s.mem.flash.wf = true → t.mem.flash.wf = true) → Does t (k v t) w g' ws' m)
    (hd : ∀ a ∈ ws, ∀ b ∈ ws', resolve s b.1 ≠ resolve s a.1) : Does s (x.andThen k) w g' (ws ++ ws') (n + m) := by
  obtain ⟨t, rfl, he, hr, hf⟩ := h
  obtain ⟨u, hu, he', hr', hf'⟩ := hk t he hr hf
  exact ⟨u, hu, he.trans he' hd, hr' ∘ hr, hf' ∘ hf⟩

/-- A sequence that stores nothing, then another. -/
theorem thenDoes {x : Res α} {k : α → State → Res β} (h : Does s x v g [] 0)
    (hk : ∀ t, Effect s t g [] 0 → (s.mem.ram.wf = true → t.mem.ram.wf = true) →
      (s.mem.flash.wf = true → t.mem.flash.wf = true) → Does t (k v t) w g' ws' m) :
    Does s (x.andThen k) w g' ws' m := by
  simpa using h.andThen hk (by simp)

/-- A sequence, then a change of registers. -/
theorem thenRegs {x : Res α} (h : Does s x v g ws n) (k : α → Regs → Regs) (w : α → β) :
    Does s (x.andThen fun v s => .ok (w v) (onRegs (k v) s)) (w v) (k v g) ws n := by
  obtain ⟨t, rfl, he, hr, hf⟩ := h
  exact ⟨_, rfl, he.thenRegs (k v), hr, hf⟩

/-- A change of registers, then a sequence. -/
theorem afterRegs {x : Res α} (k : Regs → Regs) (h : Does (onRegs k s) x v g ws n) : Does s x v g ws n := by
  obtain ⟨t, ht, he, hr, hf⟩ := h
  exact ⟨t, ht, by simpa using ((Effect.refl s).thenRegs k).trans he (by simp), hr, hf⟩

/-- The end of a meaning. -/
theorem completes {i : Instr} {x : Res α} {T : Nat} (h : Does s x v g ws n) (hi : exec i s = x.finish T) :
    completes i s g ws (n + T) := by
  obtain ⟨t, rfl, he, -, -⟩ := h
  exact ⟨_, hi, he.thenT T⟩

/-- The end of a meaning whose cost depends on what it did. -/
theorem completesWith {i : Instr} {x : Res α} {T : α → Nat} (h : Does s x v g ws n) (hi : exec i s = x.finishWith T) :
    Machine.completes i s g ws (n + T v) := by
  obtain ⟨t, rfl, he, -, -⟩ := h
  exact ⟨_, hi, he.thenT (T v)⟩

end Does

/-- A meaning that only changes registers. -/
theorem completes_regs {i : Instr} {s : State} {k : Regs → Regs} {T : Nat} (h : exec i s = done T (onRegs k s)) :
    completes i s (k s.regs) [] T := by
  have := ((Effect.refl s).thenRegs k).thenT T
  exact ⟨_, h, by simpa using this⟩

/-- A meaning whose outcome is the state with other registers. -/
theorem completes_of_regs {i : Instr} {s : State} {g : Regs} {T : Nat} (h : exec i s = done T { s with regs := g }) :
    completes i s g [] T := completes_regs (k := fun _ => g) h

/-- A meaning that does nothing. -/
theorem completes_nop {i : Instr} {s : State} {T : Nat} (h : exec i s = done T s) : completes i s s.regs [] T := by
  have := (Effect.refl s).thenT T
  exact ⟨_, h, by simpa using this⟩

section
variable {s : State} {a : Word}

/-- Read a byte into a register. -/
theorem loadFrom_does (h : readable s a = true) (k : Byte → Regs → Regs) :
    Does s (loadFrom a k s) () (k (byteAt s a) s.regs) [] 0 :=
  (Does.read h).thenRegs k fun _ => ()

/-- Read a word, low byte first. -/
theorem memRead16_does (h : readable s a = true) (h' : readable s (a + 1) = true) :
    Does s (memRead16 a s) (wordAt s a) s.regs [] 0 := by
  refine (Does.read h).thenDoes fun t e _ _ => ?_
  have h2 : readable t (a + 1) = true := by rw [e.same.readable]; exact h'
  have := (Does.read h2).thenRegs (fun _ g => g) (fun v => join v (byteAt s a))
  rw [e.byteAt_eq _ (by simp), e.regs] at this
  exact this

/-- Read a word into a 16-bit register. -/
theorem loadWordFrom_does (h : readable s a = true) (h' : readable s (a + 1) = true) (k : Word → Regs → Regs) :
    Does s (loadWordFrom a k s) () (k (wordAt s a) s.regs) [] 0 :=
  (memRead16_does h h').thenRegs k fun _ => ()

/-- Read two bytes into two registers, one after the other. -/
theorem loadHlFrom_does (h : readable s a = true) (h' : readable s (a + 1) = true) :
    Does s (loadHlFrom a s) () { s.regs with l := byteAt s a, h := byteAt s (a + 1) } [] 0 := by
  refine (loadFrom_does h _).thenDoes fun t e _ _ => ?_
  have h2 : readable t (a + 1) = true := by rw [e.same.readable]; exact h'
  have := loadFrom_does h2 (Regs.set8 .h)
  rw [e.byteAt_eq _ (by simp), e.regs] at this
  exact this

variable (hr : s.mem.ram.wf = true) (hf : s.mem.flash.wf = true) (hn : s.mem.normal.wf = true)
include hr hf hn

/-- Two writes at consecutive addresses, the lower first. -/
theorem write2_does (h : writable s a = true) (h' : writable s (a + 1) = true) (v w : Byte) :
    Does s ((memWrite a v s).andThen fun _ t => memWrite (a + 1) w t) () s.regs [(a, v), (a + 1, w)] 0 := by
  refine (Does.write hr hf h v).andThen (ws' := [(a + 1, w)]) (m := 0) (fun t e er ef => ?_) ?_
  · have := Does.write (er hr) (ef hf) (by rw [e.same.writable]; exact h') w
    rwa [e.regs] at this
  · simpa using resolve_succ_ne hn a

/-- Write a word, low byte first. -/
theorem memWrite16_does (h : writable s a = true) (h' : writable s (a + 1) = true) (v : Word) :
    Does s (memWrite16 a v s) () s.regs [(a, lo v), (a + 1, hi v)] 0 := write2_does hr hf hn h h' _ _

/-- Write `L`, then `H`. -/
theorem storeHlTo_does (h : writable s a = true) (h' : writable s (a + 1) = true) :
    Does s (storeHlTo a s) () s.regs [(a, s.regs.l), (a + 1, s.regs.h)] 0 := by
  refine (Does.write hr hf h s.regs.l).andThen (ws' := [(a + 1, s.regs.h)]) (m := 0) (fun t e er ef => ?_) ?_
  · have := Does.write (er hr) (ef hf) (by rw [e.same.writable]; exact h') t.regs.h
    rw [e.regs] at this
    rw [e.regs]
    exact this
  · simpa using resolve_succ_ne hn a

omit hr hf hn in
theorem resolve_congr {t : State} (hm : t.mem = s.mem) (hc : t.cfg = s.cfg) (b : Word) : resolve t b = resolve s b :=
  (sameMap_of_mem hm hc).resolve b

/-- `Push16(v)`: the high byte first, at the higher address. -/
theorem push16_does (h : writable s (s.regs.sp - 1) = true) (h' : writable s (s.regs.sp - 2) = true) (v : Word) :
    Does s (push16 v s) () { s.regs with sp := s.regs.sp - 2 } [(s.regs.sp - 1, hi v), (s.regs.sp - 2, lo v)] 0 := by
  have e1 : s.regs.sp - 1 - 1 = s.regs.sp - 2 := by bv_omega
  have e2 : s.regs.sp - 2 + 1 = s.regs.sp - 1 := by bv_omega
  have w1 : writable (setSp (s.regs.sp - 1) s) (s.regs.sp - 1) = true := by
    rw [(sameMap_of_mem rfl rfl : sameMap s (setSp (s.regs.sp - 1) s)).writable]; exact h
  have h1 : Does s (memWrite (s.regs.sp - 1) (hi v) (setSp (s.regs.sp - 1) s)) () { s.regs with sp := s.regs.sp - 1 }
      [(s.regs.sp - 1, hi v)] 0 :=
    Does.afterRegs (fun g => { g with sp := s.regs.sp - 1 }) (Does.write (s := setSp (s.regs.sp - 1) s) hr hf w1 (hi v))
  refine h1.andThen (ws' := [(s.regs.sp - 2, lo v)]) (m := 0) (fun t e er ef => ?_) ?_
  · have hsp : t.regs.sp - 1 = s.regs.sp - 2 := by rw [e.regs]; exact e1
    have hm : sameMap s (setSp (s.regs.sp - 2) t) := e.same.trans (sameMap_of_mem rfl rfl)
    have w2 : writable (setSp (s.regs.sp - 2) t) (s.regs.sp - 2) = true := by rw [hm.writable]; exact h'
    have := Does.afterRegs (s := t) (fun g => { g with sp := s.regs.sp - 2 })
      (Does.write (s := setSp (s.regs.sp - 2) t) (er hr) (ef hf) w2 (lo v))
    change Does t (memWrite (t.regs.sp - 1) (lo v) (setSp (t.regs.sp - 1) t)) _ _ _ _
    rw [hsp]
    simpa [setSp, onRegs, e.regs] using this
  · have := resolve_succ_ne hn (s.regs.sp - 2)
    rw [e2] at this
    simpa using this.symm

omit hr hf hn in
/-- `Pop16()`. -/
theorem pop16_does (h : readable s s.regs.sp = true) (h' : readable s (s.regs.sp + 1) = true) :
    Does s (pop16 s) (wordAt s s.regs.sp) { s.regs with sp := s.regs.sp + 2 } [] 0 := by
  have e1 : s.regs.sp + 1 + 1 = s.regs.sp + 2 := by bv_omega
  refine (Does.read h).thenDoes fun t e _ _ => ?_
  have hsp : t.regs.sp + 1 = s.regs.sp + 1 := by rw [e.regs]
  have hm : sameMap s (setSp (s.regs.sp + 1) t) := e.same.trans (sameMap_of_mem rfl rfl)
  have h2 : readable (setSp (s.regs.sp + 1) t) (s.regs.sp + 1) = true := by rw [hm.readable]; exact h'
  have hb : byteAt (setSp (s.regs.sp + 1) t) (s.regs.sp + 1) = byteAt s (s.regs.sp + 1) :=
    (e.thenRegs fun g => { g with sp := s.regs.sp + 1 }).byteAt_eq _ (by simp)
  have := (Does.read h2).thenRegs (fun _ g => { g with sp := g.sp + 1 }) (fun v => join v (byteAt s s.regs.sp))
  rw [hb] at this
  dsimp only [setSp] at this
  have := Does.afterRegs (s := t) (fun g => { g with sp := s.regs.sp + 1 }) this
  change Does t ((memRead (t.regs.sp + 1) (setSp (t.regs.sp + 1) t)).andThen _) _ _ _ _
  rw [hsp]
  rw [e1] at this
  simpa [setSp, onRegs, e.regs, wordAt] using this

omit hr hf hn in
/-- Pop a word into a 16-bit register. -/
theorem popInto_does (h : readable s s.regs.sp = true) (h' : readable s (s.regs.sp + 1) = true)
    (k : Word → Regs → Regs) :
    Does s (popInto k s) () (k (wordAt s s.regs.sp) { s.regs with sp := s.regs.sp + 2 }) [] 0 :=
  (pop16_does h h').thenRegs k fun _ => ()

/-- Push the program counter and go elsewhere. -/
theorem callTo_does (h : writable s (s.regs.sp - 1) = true) (h' : writable s (s.regs.sp - 2) = true) (a : Word) :
    Does s (callTo a s) () { s.regs with sp := s.regs.sp - 2, pc := a }
      [(s.regs.sp - 1, hi s.regs.pc), (s.regs.sp - 2, lo s.regs.pc)] 0 :=
  (push16_does hr hf hn h h' s.regs.pc).thenRegs (fun _ g => { g with pc := a }) fun _ => ()

omit hr hf hn in
/-- Pop the program counter. -/
theorem returnTo_does (h : readable s s.regs.sp = true) (h' : readable s (s.regs.sp + 1) = true) :
    Does s (returnTo s) () { s.regs with sp := s.regs.sp + 2, pc := wordAt s s.regs.sp } [] 0 :=
  (pop16_does h h').thenRegs (fun v g => { g with pc := v }) fun _ => ()

/-- `EX (SP),v`: both bytes read, then both written, the higher address first. -/
theorem exchangeTop_does (get : Regs → Word) (h : readable s s.regs.sp = true) (h' : readable s (s.regs.sp + 1) = true)
    (w : writable s s.regs.sp = true) (w' : writable s (s.regs.sp + 1) = true) :
    Does s (exchangeTop get s) (wordAt s s.regs.sp) s.regs
      [(s.regs.sp + 1, hi (get s.regs)), (s.regs.sp, lo (get s.regs))] 0 := by
  refine (Does.read h).thenDoes fun t e er ef => ?_
  have ht : readable t (t.regs.sp + 1) = true := by rw [e.same.readable, e.regs]; exact h'
  have hb : byteAt t (t.regs.sp + 1) = byteAt s (s.regs.sp + 1) := by rw [e.byteAt_eq _ (by simp), e.regs]
  refine (Does.read ht).thenDoes fun u e' er' ef' => ?_
  have hu : u.regs = s.regs := by rw [e'.regs, e.regs]
  have hm := e.same.trans e'.same
  have hru := er' (er hr)
  have hfu := ef' (ef hf)
  have h1 := Does.write hru hfu (a := u.regs.sp + 1) (by rw [hm.writable, hu]; exact w') (hi (get u.regs))
  have := h1.andThen (k := fun _ x => (memWrite x.regs.sp (lo (get x.regs)) x).andThen fun _ y =>
      .ok (join (byteAt t (t.regs.sp + 1)) (byteAt s s.regs.sp)) y)
    (w := wordAt s s.regs.sp) (g' := u.regs) (ws' := [(u.regs.sp, lo (get u.regs))]) (m := 0)
    (fun x e'' er'' ef'' => by
      have h2 := Does.write (er'' hru) (ef'' hfu) (a := x.regs.sp)
        (by rw [e''.same.writable, hm.writable, e''.regs, hu]; exact w) (lo (get x.regs))
      have h3 := h2.thenRegs (fun _ g => g) (fun _ => join (byteAt t (t.regs.sp + 1)) (byteAt s s.regs.sp))
      rw [e''.regs] at h3
      rw [hb] at h3 ⊢
      rw [e''.regs]
      exact h3)
    (by
      have hnu : u.mem.normal.wf = true := by rw [hm.normal]; exact hn
      have := (resolve_succ_ne hnu u.regs.sp).symm
      simpa using this)
  rw [hu] at this
  rw [hu]
  exact this

omit hn in
/-- Read a byte, compute, write the flags, write the result back. -/
theorem modifyFlagsFirst_does {loc : State → Word} (hl : ∀ t, t.regs.hl = s.regs.hl → t.regs.ix = s.regs.ix →
      t.regs.iy = s.regs.iy → loc t = loc s) (k : Byte → Flags → Byte × Flags)
    (h : readable s (loc s) = true) (w : writable s (loc s) = true) :
    Does s (modifyFlagsFirst loc k s) ()
      { s.regs with f := (k (byteAt s (loc s)) s.regs.flags).2.byte }
      [(loc s, (k (byteAt s (loc s)) s.regs.flags).1)] 0 := by
  refine (Does.read h).thenDoes fun t e er ef => ?_
  have hloc : loc (setFlags (k (byteAt s (loc s)) s.regs.flags).2 t) = loc s := by
    apply hl <;> simp [Regs.hl, Regs.setFlags, setFlags, onRegs, e.regs]
  have hm : sameMap s (setFlags (k (byteAt s (loc s)) s.regs.flags).2 t) := e.same.trans (sameMap_of_mem rfl rfl)
  have := Does.afterRegs (s := t) (Regs.setFlags (k (byteAt s (loc s)) s.regs.flags).2)
    (Does.write (s := setFlags (k (byteAt s (loc s)) s.regs.flags).2 t) (er hr) (ef hf) (by rw [hm.writable]; exact w)
      (k (byteAt s (loc s)) s.regs.flags).1)
  change Does t (memWrite (loc (setFlags (k (byteAt s (loc s)) t.regs.flags).2 t)) _ (setFlags _ t)) () _ _ 0
  rw [e.regs, hloc]
  simpa [Regs.setFlags, setFlags, onRegs, e.regs] using this

omit hn in
/-- A read, then a write back of what `k` makes of the byte. -/
theorem changeBitMem_does {loc : State → Word} (hl : ∀ t, t.regs = s.regs → loc t = loc s) (k : Byte → Byte)
    (h : readable s (loc s) = true) (w : writable s (loc s) = true) :
    Does s (changeBitMem k loc s) (k (byteAt s (loc s))) s.regs [(loc s, k (byteAt s (loc s)))] 0 := by
  refine (Does.read h).thenDoes fun t e er ef => ?_
  have h2 := (Does.write (er hr) (ef hf) (a := loc t) (by rw [e.same.writable, hl t e.regs]; exact w)
    (k (byteAt s (loc s)))).thenRegs (fun _ g => g) (fun _ => k (byteAt s (loc s)))
  rw [hl t e.regs, e.regs] at h2
  rw [hl t e.regs]
  exact h2

omit hn in
/-- A rotate or shift of a byte of memory: the store, then the flags. -/
theorem rotateMem_does {loc : State → Word} (hl : ∀ t, t.regs = s.regs → loc t = loc s) (op : RotOp)
    (h : readable s (loc s) = true) (w : writable s (loc s) = true) :
    Does s (rotateMem op loc s) (rotResult op (byteAt s (loc s)) (carryIn s)).1
      { s.regs with f := (rotFlags (rotResult op (byteAt s (loc s)) (carryIn s)).1
        (rotResult op (byteAt s (loc s)) (carryIn s)).2).byte }
      [(loc s, (rotResult op (byteAt s (loc s)) (carryIn s)).1)] 0 := by
  refine (Does.read h).thenDoes fun t e er ef => ?_
  have hc : carryIn t = carryIn s := by simp [carryIn, e.regs]
  have h2 := (Does.write (er hr) (ef hf) (a := loc t) (by rw [e.same.writable, hl t e.regs]; exact w)
    (rotResult op (byteAt s (loc s)) (carryIn t)).1).thenRegs
      (fun _ => Regs.setFlags (rotFlags (rotResult op (byteAt s (loc s)) (carryIn t)).1
        (rotResult op (byteAt s (loc s)) (carryIn t)).2)) (fun _ => (rotResult op (byteAt s (loc s)) (carryIn t)).1)
  rw [hl t e.regs, e.regs, hc] at h2
  change Does t ((memWrite (loc t) _ t).andThen _) _ _ _ 0
  rw [hl t e.regs, hc]
  exact h2

end

/-- Then the result is also copied into a register. -/
theorem copyInto_does {s : State} {x : Res Byte} {v : Byte} {g : Regs} {ws : List (Word × Byte)} {n : Nat}
    (h : Does s x v g ws n) (r : Reg8) : Does s (copyInto r x) () (g.set8 r v) ws n :=
  h.thenRegs (fun v => Regs.set8 r v) fun _ => ()

/-- An effect said in other words. -/
theorem completes_congr {i : Instr} {s : State} {g g' : Regs} {ws ws' : List (Word × Byte)} {n n' : Nat}
    (h : completes i s g ws n) (hg : g = g') (hw : ws = ws') (hn : n = n') : completes i s g' ws' n' := by
  subst hg hw hn; exact h

section
variable {s : State} {a : Word}

/-- An accumulator operation on a byte of memory. -/
theorem aluFrom_does (op : AluOp) (h : readable s a = true) :
    Does s (aluFrom op a s) ()
      { s.regs with a := (aluResult op s.regs.a (byteAt s a) (s.regs.f.getLsbD 0)).1
                    f := (aluResult op s.regs.a (byteAt s a) (s.regs.f.getLsbD 0)).2.byte } [] 0 :=
  (Does.read h).thenRegs (fun v g => Regs.setFlags (aluResult op g.a v g.flags.c).2
    { g with a := (aluResult op g.a v g.flags.c).1 }) fun _ => ()

/-- A bit test of a byte of memory, `X` and `Y` from the address. -/
theorem bitIndexed_does (b : BitVec 3) (h : readable s a = true) :
    Does s (bitIndexed b a s) ()
      { s.regs with f := (bitFlags b (byteAt s a) (a.getLsbD 13) (a.getLsbD 11) s.regs.flags).byte } [] 0 :=
  (Does.read h).thenRegs (fun v g => Regs.setFlags (bitFlags b v (a.getLsbD 13) (a.getLsbD 11) g.flags) g) fun _ => ()

/-- Pop the program counter and restore `IFF1`. -/
theorem returnFromInterrupt_does (h : readable s s.regs.sp = true) (h' : readable s (s.regs.sp + 1) = true) :
    Does s (returnFromInterrupt s) ()
      { s.regs with sp := s.regs.sp + 2, pc := wordAt s s.regs.sp, iff1 := s.regs.iff2 } [] 0 :=
  (returnTo_does h h').thenRegs (fun _ g => { g with iff1 := g.iff2 }) fun _ => ()

/-- One round of a block search. -/
theorem blockCompare_does (h : readable s s.regs.hl = true) (step : Word) :
    Does s (blockCompare step s) () (blockCompareEnd step (byteAt s s.regs.hl) s.regs) [] 0 :=
  (Does.read h).thenRegs (fun v => blockCompareEnd step v) fun _ => ()

variable (hr : s.mem.ram.wf = true) (hf : s.mem.flash.wf = true)
include hr hf

/-- One round of a block transfer. -/
theorem blockLoad_does (h : readable s s.regs.hl = true) (w : writable s s.regs.de = true) (step : Word) :
    Does s (blockLoad step s) () (blockLoadEnd step (byteAt s s.regs.hl) s.regs)
      [(s.regs.de, byteAt s s.regs.hl)] 0 := by
  refine (Does.read h).thenDoes fun t e er ef => ?_
  have := (Does.write (er hr) (ef hf) (a := t.regs.de) (by rw [e.same.writable, e.regs]; exact w)
    (byteAt s s.regs.hl)).thenRegs (fun _ => blockLoadEnd step (byteAt s s.regs.hl)) (fun _ => ())
  rw [e.regs] at this
  rw [e.regs]
  exact this

/-- `RLD` and `RRD`. -/
theorem rotateDigits_does (k : Byte → Byte → Byte × Byte) (h : readable s s.regs.hl = true)
    (w : writable s s.regs.hl = true) :
    Does s (rotateDigits k s) ()
      { s.regs with a := (k s.regs.a (byteAt s s.regs.hl)).2
                    f := (parityFlags (k s.regs.a (byteAt s s.regs.hl)).2 s.regs.flags).byte }
      [(s.regs.hl, (k s.regs.a (byteAt s s.regs.hl)).1)] 0 := by
  refine (Does.read h).thenDoes fun t e er ef => ?_
  have := (Does.write (er hr) (ef hf) (a := t.regs.hl) (by rw [e.same.writable, e.regs]; exact w)
    (k t.regs.a (byteAt s s.regs.hl)).1).thenRegs
      (fun _ g => Regs.setFlags (parityFlags (k g.a (byteAt s s.regs.hl)).2 g.flags)
        { g with a := (k g.a (byteAt s s.regs.hl)).2 }) (fun _ => ())
  rw [e.regs] at this
  change Does t ((memWrite t.regs.hl (k t.regs.a (byteAt s s.regs.hl)).1 t).andThen _) _ _ _ _
  rw [e.regs]
  exact this

end

/-- A repeating block instruction: one round, and the program counter goes back while there is more to do. -/
theorem repeatWhile_does {s : State} {x : Res Unit} {g : Regs} {ws : List (Word × Byte)} {i : Instr}
    (h : Does s x () g ws 0) (again : Regs → Bool) (hi : exec i s = repeatWhile again x) :
    completes i s (if again g then { g with pc := g.pc - 2 } else g) ws (if again g then 21 else 16) := by
  obtain ⟨t, rfl, e, -, -⟩ := h
  unfold repeatWhile at hi
  simp only [andThen_ok, finishWith_ok, e.regs] at hi
  refine ⟨_, hi, ?_⟩
  by_cases hg : again g = true
  · have := (e.thenRegs (fun g => { g with pc := g.pc - 2 })).thenT 21
    simpa [hg, repeatInstr, setPc, onRegs] using this
  · simpa [hg] using e.thenT 16

end Sys2Proof.Machine
end

