-- ==== Sys2Proof/Laws/Flash.lean ====
section
/-! SUPPORT. A byte write that reaches the flash command sequencer or its gate. -/

namespace Sys2Proof.Machine

/-- A Flash byte is reached through its slot, and no remap window covers it. -/
theorem resolve_flash {s : State} {a : Word} (h : (resolve s a).1 = false) :
    resolve s a = (false, flashAddr s a) ∧ inWindow s a = false := by
  unfold resolve at h ⊢
  unfold inWindow
  split at h
  · cases h
  · split at h
    · cases h
    · split at h
      · cases h
      · rename_i h1 h2 h3
        rw [if_neg h1, if_neg h2, if_neg h3]
        simp only at h
        exact ⟨by rw [h]; rfl, by simp [h1, h2]⟩

/-- A write to a Flash target is what the sequencer or its gate does, with the timing and the bus latch of a write. -/
theorem memWrite_flash {s t : State} {a : Word} {v : Byte} (h : flashTarget s a = true)
    (hx : (if flashWriteAllowed s (slotOf s a).page then flashWrite a v (setDirection false true s)
      else raiseFlashViolation a v (setDirection false true s)) = .ok () t) (hm : t.mem.marks = s.mem.marks) :
    memWrite a v s = .ok () (setBus v (addTGated (delay t.cfg .write false) t)) := by
  simp only [flashTarget, Bool.and_eq_true, Bool.not_eq_true'] at h
  obtain ⟨⟨h1, h2⟩, h3⟩ := h
  obtain ⟨hr, -⟩ := resolve_flash h2
  have hd : sameMap s (setDirection false true s) := sameMap_of_mem rfl rfl
  have hal : flashWriteAllowed (setDirection false true s) (slotOf s a).page = flashWriteAllowed s (slotOf s a).page := rfl
  rw [hr] at h1 h3
  have hk : markedFor (fun m => m.onWrite) (canonOf false (flashAddr s a)) (addTGated (delay t.cfg .write false) t)
      = false := by
    refine Eq.trans ?_ h3
    simp only [markedFor, addTGated_mem, hm]
  unfold memWrite
  simp only [hd.resolve, hr, checkStore, setDirection_cfg, h1, if_true, andThen_ok, writeEffect, Bool.false_eq_true,
    if_false, hd.slotOf, hal, hx, writeBreak, hk]

/-- `isAAA` says what 20_memory R102 says of the address. -/
theorem isAAA_eq (a : Word) : isAAA a = decide (a.toNat % 4096 = 0xAAA) := by
  unfold isAAA low12
  rw [Bool.eq_iff_iff, beq_iff_eq, decide_eq_true_iff]
  exact ⟨fun h => by simpa using congrArg BitVec.toNat h, fun h => BitVec.eq_of_toNat_eq (by simpa using h)⟩

/-- `is555` says what 20_memory R102 says of the address. -/
theorem is555_eq (a : Word) : is555 a = decide (a.toNat % 4096 = 0x555) := by
  unfold is555 low12
  rw [Bool.eq_iff_iff, beq_iff_eq, decide_eq_true_iff]
  exact ⟨fun h => by simpa using congrArg BitVec.toNat h, fun h => BitVec.eq_of_toNat_eq (by simpa using h)⟩

/-- A sequencer state apart, `u` is `s`. -/
def SeqOnly (x : FlashState) (s u : State) : Prop := u.mem = { s.mem with flashState := x } ∧ u.cfg = s.cfg

theorem SeqOnly.flashWritable {s u : State} {x : FlashState} (h : SeqOnly x s u) (a : Word) :
    flashWritable u a = flashWritable s a := by
  unfold Machine.flashWritable flashTarget flashWriteAllowed inStore resolve shadowed slotOf activeTable win27 win28
    windowsOn markedFor
  rw [h.1, h.2]

/-- One cycle of a command sequence that only moves the sequencer. -/
theorem SeqOnly.goto {s u : State} {a : Word} {v : Byte} {x y : FlashState} (hw : Machine.flashWritable s a = true)
    (hu : SeqOnly x s u) (hf : flashWrite a v (setDirection false true u) = flashGoto y (setDirection false true u)) :
    ∃ t, memWrite a v u = .ok () t ∧ SeqOnly y s t := by
  have hfw := (hu.flashWritable a).trans hw
  simp only [Machine.flashWritable, Bool.and_eq_true] at hfw
  refine ⟨_, memWrite_flash (t := setFlashState y (setDirection false true u)) hfw.1 (by rw [hfw.2]; exact hf) rfl, ?_, ?_⟩
  · simp [hu.1, setFlashState]
  · simp [setFlashState, hu.2]

end Sys2Proof.Machine
end

