-- ==== Sys2Proof/Laws/Init.lean ====
section
/-! SUPPORT. Construction, and the operations of the host: what they leave, and that they keep the invariants. -/

namespace Sys2Proof.Machine

/-- The first state of the machine is the one constructed with the default parameters and reset. -/
theorem powerOn_standard : State.powerOn Config.standard [] [] = .next State.reset := rfl

/-- After `clear()` a device's own state is the one it began in. -/
@[simp] theorem Device.clear_own (d : Device) : d.clear.own = d.initial := rfl
@[simp] theorem Device.clear_kind (d : Device) : d.clear.kind = d.kind := rfl
@[simp] theorem Device.clear_port (d : Device) : d.clear.port = d.port := rfl

/-- A slot made from a binding keeps the slot invariant. -/
theorem ofBinding_wf (b : Binding) : (BankSlot.ofBinding b).wf = true := by
  simp [BankSlot.wf, BankSlot.ofBinding, BankSlot.fresh]

/-- What a completed `Reset()` leaves: the reset CPU and a normal table that keeps the slot invariant. -/
theorem resetCpu_ok {s t : State} {v : Unit} (h : resetCpu s = .ok v t) :
    ∃ n : BankTable, n.wf = true ∧ t = resetTo n s := by
  unfold resetCpu at h
  split at h <;> cases h
  · exact ⟨_, by simp [BankTable.wf, BankTable.flashEra, BankSlot.wf, BankSlot.fresh], rfl⟩
  · exact ⟨_, by simp [BankTable.wf, BankTable.preFlash, ofBinding_wf], rfl⟩

/-- `Reset()` keeps the invariants. -/
theorem resetCpu_consistent {s t : State} {v : Unit} (hs : Consistent s = true) (h : resetCpu s = .ok v t) :
    Consistent t = true := by
  obtain ⟨n, hn, rfl⟩ := resetCpu_ok h
  simp only [Consistent, Bool.and_eq_true] at hs ⊢
  exact ⟨⟨⟨⟨⟨hs.1.1.1.1.1, hs.1.1.1.1.2⟩, hn⟩, rfl⟩, hs.1.2⟩, hs.2⟩

/-- A constructed and reset core meets the invariants, whatever its parameters. -/
theorem powerOn_consistent {c : Config} {ds : List Device} {es : List (Byte × Nat)} {t : State}
    (h : State.powerOn c ds es = .next t) : Consistent t = true := by
  unfold State.powerOn at h
  cases hx : resetCpu (State.init c ds es) with
  | ok v u =>
    rw [hx] at h; cases h
    refine resetCpu_consistent ?_ hx
    simp [Consistent, State.init, Memory.wf, Memory.wfFrom, BankTable.wf, BankTable.flashEra, BankSlot.wf, BankSlot.fresh,
      Regs.reset]
  | fault f => rw [hx] at h; cases h
  | refused r => rw [hx] at h; cases h

/-- Storing a byte keeps the invariants. -/
theorem storeSet_consistent {s : State} (hs : Consistent s = true) (isRam : Bool) (p : Nat) (v : Byte) :
    Consistent (storeSet isRam p v s) = true := by
  simp only [Consistent, Bool.and_eq_true] at hs ⊢
  cases isRam
  · exact ⟨⟨⟨⟨⟨hs.1.1.1.1.1, Memory.wf_set hs.1.1.1.1.2 _ _⟩, hs.1.1.1.2⟩, hs.1.1.2⟩, hs.1.2⟩, hs.2⟩
  · exact ⟨⟨⟨⟨⟨Memory.wf_set hs.1.1.1.1.1 _ _, hs.1.1.1.1.2⟩, hs.1.1.1.2⟩, hs.1.1.2⟩, hs.1.2⟩, hs.2⟩

/-- Loading an image keeps the invariants. -/
theorem loadImage_consistent {isRam : Bool} {image : List Byte} {addr : Nat} {s t : State} {v : Unit}
    (hs : Consistent s = true) (h : loadImage isRam image addr s = .ok v t) : Consistent t = true := by
  induction image generalizing addr s with
  | nil => cases h; exact hs
  | cons b bs ih =>
    unfold loadImage checkStore at h
    split at h
    · exact ih (storeSet_consistent hs isRam addr b) h
    · cases h

/-- No operation of the host breaks the invariants, given that no step does. -/
theorem hostDo_consistent {op : HostOp} {s t : State}
    (hstep : ∀ s t : State, Consistent s = true → step s = .next t → Consistent t = true) (hs : Consistent s = true)
    (h : hostDo op s = .next t) : Consistent t = true := by
  cases op with
  | load isRam addr image =>
    cases hx : loadImage isRam image addr s with
    | ok v u => rw [hostDo, hx] at h; cases h; exact loadImage_consistent hs hx
    | fault f => rw [hostDo, hx] at h; cases h
    | refused r => rw [hostDo, hx] at h; cases h
  | reset =>
    cases hx : resetCpu s with
    | ok v u => rw [hostDo, hx] at h; cases h; exact resetCpu_consistent hs hx
    | fault f => rw [hostDo, hx] at h; cases h
    | refused r => rw [hostDo, hx] at h; cases h
  | step => exact hstep s t hs h
  | _ => cases h; exact hs

end Sys2Proof.Machine
end

