-- ==== Sys2Proof/Laws/Interrupt.lean ====
section
/-! SUPPORT. The acknowledgement that begins every delivery of an interrupt. -/

namespace Sys2Proof.Machine

/-- Clearing `PV` in the flag byte. -/
theorem clear_pv (f : Byte) : Flags.byte { Flags.ofByte f with pv := false } = f &&& 0xFB := by
  revert f
  decide

/-- The acknowledgement changes `HALT`, `IFF1`, `IFF2`, `R` and, after `LD A,I` or `LD A,R`, `PV`. -/
theorem acknowledge_eq (ran : Option Instr) (s : State) :
    acknowledge ran s = { s with
      regs := { s.regs with iff1 := false, iff2 := false, r := refreshBy 1 s.regs.r,
                            f := if ran = some .ldAI ∨ ran = some .ldARegR then s.regs.f &&& 0xFB else s.regs.f }
      ctl := { s.ctl with halt := false } } := by
  unfold acknowledge specialFlagFix
  dsimp only
  simp only [Bool.or_eq_true, decide_eq_true_eq]
  split
  · simp only [setFlags, onRegs, advanceR, Regs.setFlags]
    rw [← clear_pv]; rfl
  · simp only [onRegs, advanceR]

/-- The acknowledgement does not change the mapping. -/
theorem acknowledge_same (ran : Option Instr) (s : State) : sameMap s (acknowledge ran s) := by
  rw [acknowledge_eq]; exact sameMap_of_mem rfl rfl

/-- An effect after the acknowledgement is an effect after the state before it, `HALT` apart. -/
theorem Effect.ofAcknowledge {ran : Option Instr} {s u : State} {g : Regs} {ws : List (Word × Byte)} {n : Nat}
    (h : Effect (acknowledge ran s) u g ws n) :
    u.ctl.halt = false ∧ Effect s { u with ctl := { u.ctl with halt := s.ctl.halt } } g ws n := by
  rw [acknowledge_eq] at h
  refine ⟨by rw [h.control], h.regs, h.stored, h.kept, h.mapping, ?_, h.agents, h.model, h.time⟩
  dsimp only
  rw [h.control]

end Sys2Proof.Machine
end

