-- ==== Sys2Proof/Laws/PerInstr.lean ====
section
/-! SUPPORT. A law of every instruction as syntax: the length of its encoding (30_encoding R161, R179). -/

namespace Sys2Proof.Laws.Encoding

/-- An encoding has one to four bytes. -/
def Statement (i : Instr) : Prop := 1 ≤ (encode i).length ∧ (encode i).length ≤ 4

/-- The two bounds, computed. -/
theorem of_ble {i : Instr} (h : Nat.ble 1 (encode i).length = true) (h' : Nat.ble (encode i).length 4 = true) :
    Statement i := ⟨Nat.le_of_ble_eq_true h, Nat.le_of_ble_eq_true h'⟩

theorem djnz (e : Byte) : Statement (.djnz e) := of_ble rfl rfl
theorem jr (e : Byte) : Statement (.jr e) := of_ble rfl rfl
theorem jrNz (e : Byte) : Statement (.jrNz e) := of_ble rfl rfl
theorem jrZ (e : Byte) : Statement (.jrZ e) := of_ble rfl rfl
theorem jrNc (e : Byte) : Statement (.jrNc e) := of_ble rfl rfl
theorem jrC (e : Byte) : Statement (.jrC e) := of_ble rfl rfl
theorem ldDdNn (p : Pair) (nn : Word) : Statement (.ldDdNn p nn) := of_ble rfl rfl
theorem ldHlNn (nn : Word) : Statement (.ldHlNn nn) := of_ble rfl rfl
theorem ldIxNn (nn : Word) : Statement (.ldIxNn nn) := of_ble rfl rfl
theorem ldIyNn (nn : Word) : Statement (.ldIyNn nn) := of_ble rfl rfl
theorem addHlSs (p : Pair) : Statement (.addHlSs p) := of_ble rfl rfl
theorem addIxPp (p : XPair) : Statement (.addIxPp p) := of_ble rfl rfl
theorem addIyRr (p : XPair) : Statement (.addIyRr p) := of_ble rfl rfl
theorem ldMemNnHl (nn : Word) : Statement (.ldMemNnHl nn) := of_ble rfl rfl
theorem ldMemNnIx (nn : Word) : Statement (.ldMemNnIx nn) := of_ble rfl rfl
theorem ldMemNnIy (nn : Word) : Statement (.ldMemNnIy nn) := of_ble rfl rfl
theorem ldMemNnA (nn : Word) : Statement (.ldMemNnA nn) := of_ble rfl rfl
theorem ldHlMemNn (nn : Word) : Statement (.ldHlMemNn nn) := of_ble rfl rfl
theorem ldIxMemNn (nn : Word) : Statement (.ldIxMemNn nn) := of_ble rfl rfl
theorem ldIyMemNn (nn : Word) : Statement (.ldIyMemNn nn) := of_ble rfl rfl
theorem ldAMemNn (nn : Word) : Statement (.ldAMemNn nn) := of_ble rfl rfl
theorem incSs (p : Pair) : Statement (.incSs p) := of_ble rfl rfl
theorem decSs (p : Pair) : Statement (.decSs p) := of_ble rfl rfl
theorem incR (r : Reg8) : Statement (.incR r) := of_ble rfl rfl
theorem incMemIx (d : Byte) : Statement (.incMemIx d) := of_ble rfl rfl
theorem incMemIy (d : Byte) : Statement (.incMemIy d) := of_ble rfl rfl
theorem decR (r : Reg8) : Statement (.decR r) := of_ble rfl rfl
theorem decMemIx (d : Byte) : Statement (.decMemIx d) := of_ble rfl rfl
theorem decMemIy (d : Byte) : Statement (.decMemIy d) := of_ble rfl rfl
theorem ldRN (r : Reg8) (n : Byte) : Statement (.ldRN r n) := of_ble rfl rfl
theorem ldIxhN (n : Byte) : Statement (.ldIxhN n) := of_ble rfl rfl
theorem ldIxlN (n : Byte) : Statement (.ldIxlN n) := of_ble rfl rfl
theorem ldIyhN (n : Byte) : Statement (.ldIyhN n) := of_ble rfl rfl
theorem ldIylN (n : Byte) : Statement (.ldIylN n) := of_ble rfl rfl
theorem ldMemHlN (n : Byte) : Statement (.ldMemHlN n) := of_ble rfl rfl
theorem ldMemIxN (d : Byte) (n : Byte) : Statement (.ldMemIxN d n) := of_ble rfl rfl
theorem ldMemIyN (d : Byte) (n : Byte) : Statement (.ldMemIyN d n) := of_ble rfl rfl
theorem ldRR (r : Reg8) (s : Reg8) : Statement (.ldRR r s) := of_ble rfl rfl
theorem ldIxHalfP (h : Half) (p : Reg8) : Statement (.ldIxHalfP h p) := of_ble rfl rfl
theorem ldPIxHalf (p : Reg8) (h : Half) : Statement (.ldPIxHalf p h) := of_ble rfl rfl
theorem ldIyHalfP (h : Half) (p : Reg8) : Statement (.ldIyHalfP h p) := of_ble rfl rfl
theorem ldPIyHalf (p : Reg8) (h : Half) : Statement (.ldPIyHalf p h) := of_ble rfl rfl
theorem ldRMemHl (r : Reg8) : Statement (.ldRMemHl r) := of_ble rfl rfl
theorem ldRMemIx (r : Reg8) (d : Byte) : Statement (.ldRMemIx r d) := of_ble rfl rfl
theorem ldRMemIy (r : Reg8) (d : Byte) : Statement (.ldRMemIy r d) := of_ble rfl rfl
theorem ldMemHlR (r : Reg8) : Statement (.ldMemHlR r) := of_ble rfl rfl
theorem ldMemIxR (d : Byte) (r : Reg8) : Statement (.ldMemIxR d r) := of_ble rfl rfl
theorem ldMemIyR (d : Byte) (r : Reg8) : Statement (.ldMemIyR d r) := of_ble rfl rfl
theorem addAR (r : Reg8) : Statement (.addAR r) := of_ble rfl rfl
theorem addAMemIx (d : Byte) : Statement (.addAMemIx d) := of_ble rfl rfl
theorem addAMemIy (d : Byte) : Statement (.addAMemIy d) := of_ble rfl rfl
theorem addAN (n : Byte) : Statement (.addAN n) := of_ble rfl rfl
theorem adcAR (r : Reg8) : Statement (.adcAR r) := of_ble rfl rfl
theorem adcAMemIx (d : Byte) : Statement (.adcAMemIx d) := of_ble rfl rfl
theorem adcAMemIy (d : Byte) : Statement (.adcAMemIy d) := of_ble rfl rfl
theorem adcAN (n : Byte) : Statement (.adcAN n) := of_ble rfl rfl
theorem subAR (r : Reg8) : Statement (.subAR r) := of_ble rfl rfl
theorem subAMemIx (d : Byte) : Statement (.subAMemIx d) := of_ble rfl rfl
theorem subAMemIy (d : Byte) : Statement (.subAMemIy d) := of_ble rfl rfl
theorem subAN (n : Byte) : Statement (.subAN n) := of_ble rfl rfl
theorem sbcAR (r : Reg8) : Statement (.sbcAR r) := of_ble rfl rfl
theorem sbcAMemIx (d : Byte) : Statement (.sbcAMemIx d) := of_ble rfl rfl
theorem sbcAMemIy (d : Byte) : Statement (.sbcAMemIy d) := of_ble rfl rfl
theorem sbcAN (n : Byte) : Statement (.sbcAN n) := of_ble rfl rfl
theorem andAR (r : Reg8) : Statement (.andAR r) := of_ble rfl rfl
theorem andAMemIx (d : Byte) : Statement (.andAMemIx d) := of_ble rfl rfl
theorem andAMemIy (d : Byte) : Statement (.andAMemIy d) := of_ble rfl rfl
theorem andAN (n : Byte) : Statement (.andAN n) := of_ble rfl rfl
theorem xorAR (r : Reg8) : Statement (.xorAR r) := of_ble rfl rfl
theorem xorAMemIx (d : Byte) : Statement (.xorAMemIx d) := of_ble rfl rfl
theorem xorAMemIy (d : Byte) : Statement (.xorAMemIy d) := of_ble rfl rfl
theorem xorAN (n : Byte) : Statement (.xorAN n) := of_ble rfl rfl
theorem orAR (r : Reg8) : Statement (.orAR r) := of_ble rfl rfl
theorem orAMemIx (d : Byte) : Statement (.orAMemIx d) := of_ble rfl rfl
theorem orAMemIy (d : Byte) : Statement (.orAMemIy d) := of_ble rfl rfl
theorem orAN (n : Byte) : Statement (.orAN n) := of_ble rfl rfl
theorem cpAR (r : Reg8) : Statement (.cpAR r) := of_ble rfl rfl
theorem cpAMemIx (d : Byte) : Statement (.cpAMemIx d) := of_ble rfl rfl
theorem cpAMemIy (d : Byte) : Statement (.cpAMemIy d) := of_ble rfl rfl
theorem cpAN (n : Byte) : Statement (.cpAN n) := of_ble rfl rfl
theorem retCc (cc : Cond) : Statement (.retCc cc) := of_ble rfl rfl
theorem popQq (q : QPair) : Statement (.popQq q) := of_ble rfl rfl
theorem jpCcNn (cc : Cond) (nn : Word) : Statement (.jpCcNn cc nn) := of_ble rfl rfl
theorem jpNn (nn : Word) : Statement (.jpNn nn) := of_ble rfl rfl
theorem outNA (n : Byte) : Statement (.outNA n) := of_ble rfl rfl
theorem inAN (n : Byte) : Statement (.inAN n) := of_ble rfl rfl
theorem callCcNn (cc : Cond) (nn : Word) : Statement (.callCcNn cc nn) := of_ble rfl rfl
theorem pushQq (q : QPair) : Statement (.pushQq q) := of_ble rfl rfl
theorem callNn (nn : Word) : Statement (.callNn nn) := of_ble rfl rfl
theorem rst (t : BitVec 3) : Statement (.rst t) := of_ble rfl rfl
theorem rlcR (r : Reg8) : Statement (.rlcR r) := of_ble rfl rfl
theorem rrcR (r : Reg8) : Statement (.rrcR r) := of_ble rfl rfl
theorem rlR (r : Reg8) : Statement (.rlR r) := of_ble rfl rfl
theorem rrR (r : Reg8) : Statement (.rrR r) := of_ble rfl rfl
theorem slaR (r : Reg8) : Statement (.slaR r) := of_ble rfl rfl
theorem sraR (r : Reg8) : Statement (.sraR r) := of_ble rfl rfl
theorem sllR (r : Reg8) : Statement (.sllR r) := of_ble rfl rfl
theorem srlR (r : Reg8) : Statement (.srlR r) := of_ble rfl rfl
theorem bitBR (b : BitVec 3) (r : Reg8) : Statement (.bitBR b r) := of_ble rfl rfl
theorem bitBMemHl (b : BitVec 3) : Statement (.bitBMemHl b) := of_ble rfl rfl
theorem resBR (b : BitVec 3) (r : Reg8) : Statement (.resBR b r) := of_ble rfl rfl
theorem resBMemHl (b : BitVec 3) : Statement (.resBMemHl b) := of_ble rfl rfl
theorem setBR (b : BitVec 3) (r : Reg8) : Statement (.setBR b r) := of_ble rfl rfl
theorem setBMemHl (b : BitVec 3) : Statement (.setBMemHl b) := of_ble rfl rfl
theorem rlcMemIx (d : Byte) : Statement (.rlcMemIx d) := of_ble rfl rfl
theorem rlcMemIxR (d : Byte) (r : Reg8) : Statement (.rlcMemIxR d r) := of_ble rfl rfl
theorem rrcMemIx (d : Byte) : Statement (.rrcMemIx d) := of_ble rfl rfl
theorem rrcMemIxR (d : Byte) (r : Reg8) : Statement (.rrcMemIxR d r) := of_ble rfl rfl
theorem rlMemIx (d : Byte) : Statement (.rlMemIx d) := of_ble rfl rfl
theorem rlMemIxR (d : Byte) (r : Reg8) : Statement (.rlMemIxR d r) := of_ble rfl rfl
theorem rrMemIx (d : Byte) : Statement (.rrMemIx d) := of_ble rfl rfl
theorem rrMemIxR (d : Byte) (r : Reg8) : Statement (.rrMemIxR d r) := of_ble rfl rfl
theorem slaMemIx (d : Byte) : Statement (.slaMemIx d) := of_ble rfl rfl
theorem slaMemIxR (d : Byte) (r : Reg8) : Statement (.slaMemIxR d r) := of_ble rfl rfl
theorem sraMemIx (d : Byte) : Statement (.sraMemIx d) := of_ble rfl rfl
theorem sraMemIxR (d : Byte) (r : Reg8) : Statement (.sraMemIxR d r) := of_ble rfl rfl
theorem sllMemIx (d : Byte) : Statement (.sllMemIx d) := of_ble rfl rfl
theorem sllMemIxR (d : Byte) (r : Reg8) : Statement (.sllMemIxR d r) := of_ble rfl rfl
theorem srlMemIx (d : Byte) : Statement (.srlMemIx d) := of_ble rfl rfl
theorem srlMemIxR (d : Byte) (r : Reg8) : Statement (.srlMemIxR d r) := of_ble rfl rfl
theorem bitBMemIx (b : BitVec 3) (d : Byte) : Statement (.bitBMemIx b d) := of_ble rfl rfl
theorem bitBMemIxCopy (b : BitVec 3) (d : Byte) (z : Reg8) : Statement (.bitBMemIxCopy b d z) :=
  of_ble rfl rfl
theorem resBMemIx (b : BitVec 3) (d : Byte) : Statement (.resBMemIx b d) := of_ble rfl rfl
theorem resBMemIxR (b : BitVec 3) (d : Byte) (r : Reg8) : Statement (.resBMemIxR b d r) := of_ble rfl rfl
theorem setBMemIx (b : BitVec 3) (d : Byte) : Statement (.setBMemIx b d) := of_ble rfl rfl
theorem setBMemIxR (b : BitVec 3) (d : Byte) (r : Reg8) : Statement (.setBMemIxR b d r) := of_ble rfl rfl
theorem rlcMemIy (d : Byte) : Statement (.rlcMemIy d) := of_ble rfl rfl
theorem rlcMemIyR (d : Byte) (r : Reg8) : Statement (.rlcMemIyR d r) := of_ble rfl rfl
theorem rrcMemIy (d : Byte) : Statement (.rrcMemIy d) := of_ble rfl rfl
theorem rrcMemIyR (d : Byte) (r : Reg8) : Statement (.rrcMemIyR d r) := of_ble rfl rfl
theorem rlMemIy (d : Byte) : Statement (.rlMemIy d) := of_ble rfl rfl
theorem rlMemIyR (d : Byte) (r : Reg8) : Statement (.rlMemIyR d r) := of_ble rfl rfl
theorem rrMemIy (d : Byte) : Statement (.rrMemIy d) := of_ble rfl rfl
theorem rrMemIyR (d : Byte) (r : Reg8) : Statement (.rrMemIyR d r) := of_ble rfl rfl
theorem slaMemIy (d : Byte) : Statement (.slaMemIy d) := of_ble rfl rfl
theorem slaMemIyR (d : Byte) (r : Reg8) : Statement (.slaMemIyR d r) := of_ble rfl rfl
theorem sraMemIy (d : Byte) : Statement (.sraMemIy d) := of_ble rfl rfl
theorem sraMemIyR (d : Byte) (r : Reg8) : Statement (.sraMemIyR d r) := of_ble rfl rfl
theorem sllMemIy (d : Byte) : Statement (.sllMemIy d) := of_ble rfl rfl
theorem sllMemIyR (d : Byte) (r : Reg8) : Statement (.sllMemIyR d r) := of_ble rfl rfl
theorem srlMemIy (d : Byte) : Statement (.srlMemIy d) := of_ble rfl rfl
theorem srlMemIyR (d : Byte) (r : Reg8) : Statement (.srlMemIyR d r) := of_ble rfl rfl
theorem bitBMemIy (b : BitVec 3) (d : Byte) : Statement (.bitBMemIy b d) := of_ble rfl rfl
theorem bitBMemIyCopy (b : BitVec 3) (d : Byte) (z : Reg8) : Statement (.bitBMemIyCopy b d z) :=
  of_ble rfl rfl
theorem resBMemIy (b : BitVec 3) (d : Byte) : Statement (.resBMemIy b d) := of_ble rfl rfl
theorem resBMemIyR (b : BitVec 3) (d : Byte) (r : Reg8) : Statement (.resBMemIyR b d r) := of_ble rfl rfl
theorem setBMemIy (b : BitVec 3) (d : Byte) : Statement (.setBMemIy b d) := of_ble rfl rfl
theorem setBMemIyR (b : BitVec 3) (d : Byte) (r : Reg8) : Statement (.setBMemIyR b d r) := of_ble rfl rfl
theorem inRC (r : Reg8) : Statement (.inRC r) := of_ble rfl rfl
theorem outCR (r : Reg8) : Statement (.outCR r) := of_ble rfl rfl
theorem sbcHlSs (p : Pair) : Statement (.sbcHlSs p) := of_ble rfl rfl
theorem adcHlSs (p : Pair) : Statement (.adcHlSs p) := of_ble rfl rfl
theorem ldMemNnDd (nn : Word) (p : Pair) : Statement (.ldMemNnDd nn p) := of_ble rfl rfl
theorem ldDdMemNn (p : Pair) (nn : Word) : Statement (.ldDdMemNn p nn) := of_ble rfl rfl
theorem negCopy (y : BitVec 3) : Statement (.negCopy y) := of_ble rfl rfl
theorem retnCopy (y : BitVec 3) : Statement (.retnCopy y) := of_ble rfl rfl
theorem im0Copy (y : BitVec 3) : Statement (.im0Copy y) := of_ble rfl rfl
theorem nopEd7 (x : BitVec 1) : Statement (.nopEd7 x) := of_ble rfl rfl
theorem nopEdLow (x : BitVec 6) : Statement (.nopEdLow x) := of_ble rfl rfl
theorem nopEdHigh (x : BitVec 6) : Statement (.nopEdHigh x) := of_ble rfl rfl
theorem nopEdMid (x : BitVec 5) : Statement (.nopEdMid x) := of_ble rfl rfl
theorem nopEdBlock (y : BitVec 2) (x : BitVec 2) : Statement (.nopEdBlock y x) := of_ble rfl rfl
theorem nop : Statement .nop := of_ble rfl rfl
theorem exAfAf : Statement .exAfAf := of_ble rfl rfl
theorem ldMemBcA : Statement .ldMemBcA := of_ble rfl rfl
theorem ldMemDeA : Statement .ldMemDeA := of_ble rfl rfl
theorem ldAMemBc : Statement .ldAMemBc := of_ble rfl rfl
theorem ldAMemDe : Statement .ldAMemDe := of_ble rfl rfl
theorem incHl : Statement .incHl := of_ble rfl rfl
theorem incIx : Statement .incIx := of_ble rfl rfl
theorem incIy : Statement .incIy := of_ble rfl rfl
theorem decHl : Statement .decHl := of_ble rfl rfl
theorem decIx : Statement .decIx := of_ble rfl rfl
theorem decIy : Statement .decIy := of_ble rfl rfl
theorem incIxh : Statement .incIxh := of_ble rfl rfl
theorem incIxl : Statement .incIxl := of_ble rfl rfl
theorem incIyh : Statement .incIyh := of_ble rfl rfl
theorem incIyl : Statement .incIyl := of_ble rfl rfl
theorem incMemHl : Statement .incMemHl := of_ble rfl rfl
theorem decIxh : Statement .decIxh := of_ble rfl rfl
theorem decIxl : Statement .decIxl := of_ble rfl rfl
theorem decIyh : Statement .decIyh := of_ble rfl rfl
theorem decIyl : Statement .decIyl := of_ble rfl rfl
theorem decMemHl : Statement .decMemHl := of_ble rfl rfl
theorem rlca : Statement .rlca := of_ble rfl rfl
theorem rrca : Statement .rrca := of_ble rfl rfl
theorem rla : Statement .rla := of_ble rfl rfl
theorem rra : Statement .rra := of_ble rfl rfl
theorem daa : Statement .daa := of_ble rfl rfl
theorem cpl : Statement .cpl := of_ble rfl rfl
theorem scf : Statement .scf := of_ble rfl rfl
theorem ccf : Statement .ccf := of_ble rfl rfl
theorem halt : Statement .halt := of_ble rfl rfl
theorem addAIxh : Statement .addAIxh := of_ble rfl rfl
theorem addAIxl : Statement .addAIxl := of_ble rfl rfl
theorem addAIyh : Statement .addAIyh := of_ble rfl rfl
theorem addAIyl : Statement .addAIyl := of_ble rfl rfl
theorem addAMemHl : Statement .addAMemHl := of_ble rfl rfl
theorem adcAIxh : Statement .adcAIxh := of_ble rfl rfl
theorem adcAIxl : Statement .adcAIxl := of_ble rfl rfl
theorem adcAIyh : Statement .adcAIyh := of_ble rfl rfl
theorem adcAIyl : Statement .adcAIyl := of_ble rfl rfl
theorem adcAMemHl : Statement .adcAMemHl := of_ble rfl rfl
theorem subAIxh : Statement .subAIxh := of_ble rfl rfl
theorem subAIxl : Statement .subAIxl := of_ble rfl rfl
theorem subAIyh : Statement .subAIyh := of_ble rfl rfl
theorem subAIyl : Statement .subAIyl := of_ble rfl rfl
theorem subAMemHl : Statement .subAMemHl := of_ble rfl rfl
theorem sbcAIxh : Statement .sbcAIxh := of_ble rfl rfl
theorem sbcAIxl : Statement .sbcAIxl := of_ble rfl rfl
theorem sbcAIyh : Statement .sbcAIyh := of_ble rfl rfl
theorem sbcAIyl : Statement .sbcAIyl := of_ble rfl rfl
theorem sbcAMemHl : Statement .sbcAMemHl := of_ble rfl rfl
theorem andAIxh : Statement .andAIxh := of_ble rfl rfl
theorem andAIxl : Statement .andAIxl := of_ble rfl rfl
theorem andAIyh : Statement .andAIyh := of_ble rfl rfl
theorem andAIyl : Statement .andAIyl := of_ble rfl rfl
theorem andAMemHl : Statement .andAMemHl := of_ble rfl rfl
theorem xorAIxh : Statement .xorAIxh := of_ble rfl rfl
theorem xorAIxl : Statement .xorAIxl := of_ble rfl rfl
theorem xorAIyh : Statement .xorAIyh := of_ble rfl rfl
theorem xorAIyl : Statement .xorAIyl := of_ble rfl rfl
theorem xorAMemHl : Statement .xorAMemHl := of_ble rfl rfl
theorem orAIxh : Statement .orAIxh := of_ble rfl rfl
theorem orAIxl : Statement .orAIxl := of_ble rfl rfl
theorem orAIyh : Statement .orAIyh := of_ble rfl rfl
theorem orAIyl : Statement .orAIyl := of_ble rfl rfl
theorem orAMemHl : Statement .orAMemHl := of_ble rfl rfl
theorem cpAIxh : Statement .cpAIxh := of_ble rfl rfl
theorem cpAIxl : Statement .cpAIxl := of_ble rfl rfl
theorem cpAIyh : Statement .cpAIyh := of_ble rfl rfl
theorem cpAIyl : Statement .cpAIyl := of_ble rfl rfl
theorem cpAMemHl : Statement .cpAMemHl := of_ble rfl rfl
theorem popHl : Statement .popHl := of_ble rfl rfl
theorem popIx : Statement .popIx := of_ble rfl rfl
theorem popIy : Statement .popIy := of_ble rfl rfl
theorem ret : Statement .ret := of_ble rfl rfl
theorem exx : Statement .exx := of_ble rfl rfl
theorem jpMemHl : Statement .jpMemHl := of_ble rfl rfl
theorem jpMemIx : Statement .jpMemIx := of_ble rfl rfl
theorem jpMemIy : Statement .jpMemIy := of_ble rfl rfl
theorem ldSpHl : Statement .ldSpHl := of_ble rfl rfl
theorem ldSpIx : Statement .ldSpIx := of_ble rfl rfl
theorem ldSpIy : Statement .ldSpIy := of_ble rfl rfl
theorem prefixCb : Statement .prefixCb := of_ble rfl rfl
theorem prefixXyCb : Statement .prefixXyCb := of_ble rfl rfl
theorem exMemSpHl : Statement .exMemSpHl := of_ble rfl rfl
theorem exMemSpIx : Statement .exMemSpIx := of_ble rfl rfl
theorem exMemSpIy : Statement .exMemSpIy := of_ble rfl rfl
theorem exDeHl : Statement .exDeHl := of_ble rfl rfl
theorem di : Statement .di := of_ble rfl rfl
theorem ei : Statement .ei := of_ble rfl rfl
theorem pushHl : Statement .pushHl := of_ble rfl rfl
theorem pushIx : Statement .pushIx := of_ble rfl rfl
theorem pushIy : Statement .pushIy := of_ble rfl rfl
theorem prefixDd : Statement .prefixDd := of_ble rfl rfl
theorem prefixEd : Statement .prefixEd := of_ble rfl rfl
theorem prefixFd : Statement .prefixFd := of_ble rfl rfl
theorem rlcMemHl : Statement .rlcMemHl := of_ble rfl rfl
theorem rrcMemHl : Statement .rrcMemHl := of_ble rfl rfl
theorem rlMemHl : Statement .rlMemHl := of_ble rfl rfl
theorem rrMemHl : Statement .rrMemHl := of_ble rfl rfl
theorem slaMemHl : Statement .slaMemHl := of_ble rfl rfl
theorem sraMemHl : Statement .sraMemHl := of_ble rfl rfl
theorem sllMemHl : Statement .sllMemHl := of_ble rfl rfl
theorem srlMemHl : Statement .srlMemHl := of_ble rfl rfl
theorem inFC : Statement .inFC := of_ble rfl rfl
theorem outC0 : Statement .outC0 := of_ble rfl rfl
theorem neg : Statement .neg := of_ble rfl rfl
theorem retn : Statement .retn := of_ble rfl rfl
theorem reti : Statement .reti := of_ble rfl rfl
theorem im0 : Statement .im0 := of_ble rfl rfl
theorem im1 : Statement .im1 := of_ble rfl rfl
theorem im2 : Statement .im2 := of_ble rfl rfl
theorem im1Copy : Statement .im1Copy := of_ble rfl rfl
theorem im2Copy : Statement .im2Copy := of_ble rfl rfl
theorem ldIA : Statement .ldIA := of_ble rfl rfl
theorem ldRegRA : Statement .ldRegRA := of_ble rfl rfl
theorem ldAI : Statement .ldAI := of_ble rfl rfl
theorem ldARegR : Statement .ldARegR := of_ble rfl rfl
theorem rrd : Statement .rrd := of_ble rfl rfl
theorem rld : Statement .rld := of_ble rfl rfl
theorem ldi : Statement .ldi := of_ble rfl rfl
theorem cpi : Statement .cpi := of_ble rfl rfl
theorem ini : Statement .ini := of_ble rfl rfl
theorem outi : Statement .outi := of_ble rfl rfl
theorem ldd : Statement .ldd := of_ble rfl rfl
theorem cpd : Statement .cpd := of_ble rfl rfl
theorem ind : Statement .ind := of_ble rfl rfl
theorem outd : Statement .outd := of_ble rfl rfl
theorem ldir : Statement .ldir := of_ble rfl rfl
theorem cpir : Statement .cpir := of_ble rfl rfl
theorem inir : Statement .inir := of_ble rfl rfl
theorem otir : Statement .otir := of_ble rfl rfl
theorem lddr : Statement .lddr := of_ble rfl rfl
theorem cpdr : Statement .cpdr := of_ble rfl rfl
theorem indr : Statement .indr := of_ble rfl rfl
theorem otdr : Statement .otdr := of_ble rfl rfl

end Sys2Proof.Laws.Encoding
end

