-- ==== Sys2Proof/Laws/Ports.lean ====
section
/-! SUPPORT. Port transfers whose other side is nobody or the latch device. -/

namespace Sys2Proof.Machine

/-- Nobody at an empty port takes part. -/
theorem dispatchPort_empty {s : State} {p : Byte} (h : emptyPort s p = true) : dispatchPort p s = .ok () s := by
  unfold dispatchPort
  unfold emptyPort at h
  split <;> rename_i h'
  · rfl
  · rw [h'] at h
    simp only [Bool.not_eq_true'] at h
    simp [h]

/-- An input from an empty port. -/
theorem portIn_empty {s : State} {p : Byte} (h : emptyPort s p = true) (hi : s.ctl.input = false) :
    portIn p s = .ok 0xFF { s with ctl := { s.ctl with bus := 0xFF }, pio := { s.pio with ioCache := 0xFF },
                                   log := .noAnswerIn p :: s.log } := by
  have : emptyPort (setInput true s) p = true := h
  simp only [portIn, dispatchPort_empty this, andThen_ok, finishIn, setOutput]
  rcases s with ⟨r, ⟨b, ha, rd, wr, inp, out, int, ei, pf⟩, m, t, pi, d, l, f, c⟩
  simp only at hi
  subst hi
  rfl

/-- An output to an empty port. -/
theorem portOut_empty {s : State} {p v : Byte} (h : emptyPort s p = true) (ho : s.ctl.output = false) :
    portOut p v s = .ok () { s with ctl := { s.ctl with bus := v }, pio := { s.pio with ioCache := v },
                                    log := .noAnswerOut p :: s.log } := by
  have : emptyPort (setOutput true (setIoCache v (setBus v s))) p = true := h
  simp only [portOut, dispatchPort_empty this, andThen_ok, finishOut, setInput]
  rcases s with ⟨r, ⟨b, ha, rd, wr, inp, out, int, ei, pf⟩, m, t, pi, d, l, f, c⟩
  simp only at ho
  subst ho
  rfl

/-- What `latchAt` says. -/
theorem latchAt_device {s : State} {p v : Byte} (h : latchAt s p v = true) :
    ∃ d, deviceAt s p = some d ∧ d.active = true ∧ d.protectedPort = false ∧ d.breakpoint = false ∧ d.kind = .latch ∧
      d.own = v.toNat ∧ d.port = p := by
  unfold latchAt at h
  split at h
  · cases h
  · rename_i d hd
    simp only [Bool.and_eq_true, Bool.not_eq_true', beq_iff_eq] at h
    exact ⟨d, hd, h.1.1.1.1, h.1.1.1.2, h.1.1.2, h.1.2, h.2, by simpa using List.find?_some hd⟩

/-- An input from the latch. -/
theorem portIn_latch {s : State} {p v : Byte} (h : latchAt s p v = true) (hi : s.ctl.input = false)
    (ho : s.ctl.output = false) :
    portIn p s = .ok v { s with ctl := { s.ctl with bus := v }, pio := { s.pio with ioCache := v } } := by
  obtain ⟨d, hd, h1, h2, h3, h4, h5, -⟩ := latchAt_device h
  have hd' : deviceAt (setInput true s) p = some d := hd
  have hk : BitVec.ofNat 8 d.own = v := by rw [h5]; simp
  have e1 : (setInput true s).ctl.output = false := ho
  have e2 : (setInput true s).ctl.input = true := rfl
  simp only [portIn, dispatchPort, hd', h1, portAllowed, h2, h3, runDevice, Device.run, h4, andThen_ok, Bool.not_false,
    Bool.true_or, Bool.and_self, if_true, Bool.false_eq_true, if_false, e1, e2, hk, finishIn]
  rcases s with ⟨r, ⟨b, ha, rd, wr, inp, out, int, ei, pf⟩, m, t, pi, d, l, f, c⟩
  simp only at hi ho
  subst hi ho
  rfl

/-- An output to the latch. -/
theorem portOut_latch {s : State} {p v : Byte} (w : Byte) (h : latchAt s p v = true) (hi : s.ctl.input = false)
    (ho : s.ctl.output = false) :
    portOut p w s = .ok () { s with
      ctl := { s.ctl with bus := w }
      pio := { s.pio with ioCache := w,
                          devices := s.pio.devices.map fun d => if d.port == p then { d with own := w.toNat } else d } } := by
  obtain ⟨d, hd, h1, h2, h3, h4, -, h6⟩ := latchAt_device h
  have hd' : deviceAt (setOutput true (setIoCache w (setBus w s))) p = some d := hd
  have e1 : (setOutput true (setIoCache w (setBus w s))).ctl.output = true := rfl
  simp only [portOut, dispatchPort, hd', h1, portAllowed, h2, h3, runDevice, Device.run, h4, andThen_ok, Bool.not_false,
    Bool.true_or, Bool.and_self, if_true, Bool.false_eq_true, if_false, e1, finishOut, h6]
  rcases s with ⟨r, ⟨b, ha, rd, wr, inp, out, int, ei, pf⟩, m, t, pi, d, l, f, c⟩
  simp only at hi ho
  subst hi ho
  rfl

/-- A meaning whose outcome is the state with other registers, bus latch, PIO context, output stream and free count. -/
theorem completesWith_of {i : Instr} {s : State} {g : Regs} {b : Byte} {pio : Pio} {log : List LogLine} {n T : Nat}
    (h : exec i s = done T
      { s with regs := g, ctl := { s.ctl with bus := b }, pio := pio, log := log, free := s.free + n }) :
    completesWith i s g [] T pio log n := by
  refine ⟨_, h, rfl, rfl, rfl, ?_⟩
  have e := ((Effect.refl s).thenRegs (fun _ => g)).thenT T
  exact ⟨rfl, by simp, e.kept, rfl, rfl, ⟨rfl, rfl, rfl⟩, ⟨rfl, rfl⟩, fun _ => by simp [addT]⟩

/-- A block transfer with a port goes through: the registers are `g`, the bytes `ws` are stored, the PIO context and the output
stream are `pio` and `log`, one free value is drawn, and nothing else changes but the bus latch and the direction flags. -/
def Transfers (s : State) (x : Res Unit) (g : Regs) (ws : List (Word × Byte)) (pio : Pio) (log : List LogLine) : Prop :=
  ∃ t, x = .ok () t ∧ t.pio = pio ∧ t.log = log ∧ t.free = s.free + 1 ∧ t.regs = g ∧
    Effect s { t with pio := s.pio, log := s.log, free := s.free } g ws 0

/-- The registers after a block transfer, `f` the new flag byte. -/
def blockIoRegs (step : Word) (f : Byte) (g : Regs) : Regs := { g.setHl (g.hl + step) with b := g.b - 1, f := f }

/-- The flag byte after a block transfer from `s`. -/
def blockIoFlagByte (s : State) : Byte := (blockIoFlags (s.regs.b - 1) (Config.freeByte s.free)).byte

/-- One block input, by what the port's input does. -/
theorem blockIn_transfers {s : State} {v : Byte} {pio : Pio} {log : List LogLine} (hr : s.mem.ram.wf = true)
    (hf : s.mem.flash.wf = true) (w : writable s s.regs.hl = true)
    (hp : portIn s.regs.c s = .ok v { s with ctl := { s.ctl with bus := v }, pio := pio, log := log }) (step : Word) :
    Transfers s (blockIn step s) (blockIoRegs step (blockIoFlagByte s) s.regs) [(s.regs.hl, v)] pio log := by
  let u : State := { s with ctl := { s.ctl with bus := v }, pio := pio, log := log }
  have w' : writable u s.regs.hl = true := by rw [(sameMap_of_mem rfl rfl : sameMap s u).writable]; exact w
  obtain ⟨t, ht, e, -, -⟩ := Does.write (s := u) hr hf w' v
  have hb : blockIn step s =
      .ok () (blockIoEnd (onRegs (fun g => { g.setHl (g.hl + step) with b := g.b - 1 }) t)) := by
    simp only [blockIn, hp, andThen_ok]
    change (memWrite s.regs.hl v u).andThen _ = _
    rw [ht]; rfl
  have hfree : t.free = s.free := e.model.1
  have hg : (blockIoEnd (onRegs (fun g => { g.setHl (g.hl + step) with b := g.b - 1 }) t)).regs =
      blockIoRegs step (blockIoFlagByte s) s.regs := by
    have hregs : t.regs = s.regs := e.regs
    simp only [blockIoEnd, onRegs, drawFree, setFlags, Regs.setFlags, hregs, hfree, Regs.setHl, blockIoRegs,
      blockIoFlagByte]
  refine ⟨_, hb, e.agents.1, e.agents.2.2, by change t.free + 1 = _; rw [hfree], hg, hg, e.stored, e.kept, e.mapping,
    e.control, ⟨rfl, e.agents.2.1, rfl⟩, ⟨rfl, e.model.2⟩, e.time⟩

/-- One block output, by what the port's output does. -/
theorem blockOut_transfers {s : State} {pio : Pio} {k : List LogLine → List LogLine}
    (r : readable s s.regs.hl = true)
    (hp : ∀ u : State, u.pio = s.pio → u.ctl.input = s.ctl.input → u.ctl.output = s.ctl.output →
      portOut s.regs.c (byteAt s s.regs.hl) u =
        .ok () { u with ctl := { u.ctl with bus := byteAt s s.regs.hl }, pio := pio, log := k u.log }) (step : Word) :
    Transfers s (blockOut step s) (blockIoRegs step (blockIoFlagByte s) s.regs) [] pio (k s.log) := by
  obtain ⟨t, ht, e, -, -⟩ := Does.read r
  have hregs : t.regs = s.regs := e.regs
  have hfree : t.free = s.free := e.model.1
  let u := onRegs (fun g => { g with b := g.b - 1 }) t
  let u' : State := { u with ctl := { u.ctl with bus := byteAt s s.regs.hl }, pio := pio, log := k u.log }
  have hu : u.regs.c = s.regs.c := by change t.regs.c = _; rw [hregs]
  have hb : blockOut step s = .ok () (blockIoEnd (onRegs (fun g => g.setHl (g.hl + step)) u')) := by
    simp only [blockOut, ht, andThen_ok]
    change (portOut u.regs.c _ u).andThen _ = _
    rw [hu, hp u e.agents.1 (by change t.ctl.input = _; rw [e.control]) (by change t.ctl.output = _; rw [e.control])]
    rfl
  have hg : (blockIoEnd (onRegs (fun g => g.setHl (g.hl + step)) u')).regs =
      blockIoRegs step (blockIoFlagByte s) s.regs := by
    simp only [blockIoEnd, onRegs, drawFree, setFlags, Regs.setFlags, hregs, hfree, Regs.setHl, u', u, Regs.hl,
      blockIoRegs, blockIoFlagByte]
  refine ⟨_, hb, rfl, by change k t.log = _; rw [e.agents.2.2], by change t.free + 1 = _; rw [hfree], hg, hg, e.stored,
    e.kept, e.mapping, ?_, ⟨rfl, e.agents.2.1, rfl⟩, ⟨rfl, e.model.2⟩, e.time⟩
  change ({ t.ctl with bus := byteAt s s.regs.hl } : Control) =
    { s.ctl with bus := byteAt s s.regs.hl, read := t.ctl.read, write := t.ctl.write }
  rw [e.control]

/-- A block transfer that does not repeat. -/
theorem Transfers.once {s : State} {x : Res Unit} {g : Regs} {ws : List (Word × Byte)} {pio : Pio} {log : List LogLine}
    {i : Instr} (h : Transfers s x g ws pio log) (hi : exec i s = x.finish 16) : completesWith i s g ws 16 pio log 1 := by
  obtain ⟨t, rfl, h1, h2, h3, -, e⟩ := h
  exact ⟨_, hi, h1, h2, h3, e.thenT 16⟩

/-- A block transfer that repeats while `B` is not 0. -/
theorem Transfers.many {s : State} {x : Res Unit} {g : Regs} {ws : List (Word × Byte)} {pio : Pio} {log : List LogLine}
    {i : Instr} (h : Transfers s x g ws pio log) (hi : exec i s = repeatWhile bLeft x) :
    completesWith i s (if g.b = 0 then g else { g with pc := g.pc - 2 }) ws (if g.b = 0 then 16 else 21) pio log 1 := by
  obtain ⟨t, rfl, h1, h2, h3, hg, e⟩ := h
  unfold repeatWhile at hi
  simp only [andThen_ok, finishWith_ok, bLeft, hg, bne_iff_ne, ne_eq, ite_not] at hi
  by_cases hb : g.b = 0
  · rw [if_pos hb, if_pos hb] at hi
    rw [if_pos hb, if_pos hb]
    exact ⟨_, hi, h1, h2, h3, e.thenT 16⟩
  · rw [if_neg hb, if_neg hb] at hi
    rw [if_neg hb, if_neg hb]
    have := (e.thenRegs (fun g => { g with pc := g.pc - 2 })).thenT 21
    refine ⟨_, hi, h1, h2, h3, ?_⟩
    simpa [repeatInstr, setPc, onRegs, hg, addT] using this

end Sys2Proof.Machine
end

