-- ==== Sys2Proof/Laws/Touch.lean ====
section
/-! SUPPORT. Everything a memory access or a port transfer can do, said once: it is a sequence of the primitive changes of
`Touch`. -/

namespace Sys2Proof.Machine

/-- One primitive change. `io` says whether the flags of a port transfer or an interrupt may change, `w` whether memory may.
What an agent of unknown behaviour does is one constructor inside a port transfer, and one outside it, where no
transfer is under way when it is done. -/
inductive Touch (io w : Bool) : State → State → Prop where
  | ctl (s : State) (c : Control) (h : c.halt = s.ctl.halt ∧ c.pfx = s.ctl.pfx ∧ c.eiBlock = s.ctl.eiBlock)
      (hio : io = true ∨ (c.input = s.ctl.input ∧ c.output = s.ctl.output ∧ c.interrupt = s.ctl.interrupt)) :
      Touch io w s { s with ctl := c }
  | time (s : State) (n : Nat) : Touch io w s (addT n s)
  | store (s : State) (k : Bool) (p : Nat) (v : Byte) (hw : w = true)
      (h : k = true ∨ s.mem.flashLocked = false ∨ tame s = false) :
      Touch io w s (storeSet k p v s)
  | fill (s : State) (a n : Nat) (v : Byte) (hw : w = true) (h : s.mem.flashLocked = false) :
      Touch io w s (flashFill a n v s)
  | sequencer (s : State) (x : FlashState) (e : Bool) :
      Touch io w s { s with mem := { s.mem with flashState := x, flashError := e } }
  | lock (s : State) (v : Bool) (h : ∃ d ∈ s.pio.devices, d.kind = .lock) :
      Touch io w s { s with mem := { s.mem with flashLocked := v } }
  | log (s : State) (x : LogLine) : Touch io w s (logLine x s)
  | cache (s : State) (v : Byte) : Touch io w s (setIoCache v s)
  | own (s : State) (p : Byte) (n : Nat) : Touch io w s (setDeviceOwn p n s)
  | agent (s t : State) (x : Action) (hio : io = true) (h : tame s = false) (hx : applyAction x s = .ok () t) :
      Touch io w s t
  | hook (s t : State) (xs : List Action) (h : tame s = false) (hx : applyActions xs s = .ok () t) :
      Touch io w s (endTransfer t)

/-- A sequence of primitive changes. -/
abbrev Touches (io w : Bool) : State → State → Prop := Relation.ReflTransGen (Touch io w)

section
variable {io w : Bool} {s t u : State}

theorem Touches.one (h : Touch io w s t) : Touches io w s t := .single h

theorem Touches.trans (h : Touches io w s t) (h' : Touches io w t u) : Touches io w s u := Relation.ReflTransGen.trans h h'

/-- A relation that every primitive change respects is respected by a sequence of them. -/
theorem touches_closed {R : State → State → Prop} (hr : ∀ s, R s s) (ht : ∀ {s t u}, R s t → R t u → R s u)
    (h1 : ∀ {s t}, Touch io w s t → R s t) (h : Touches io w s t) : R s t := by
  induction h with
  | refl => exact hr _
  | tail _ h ih => exact ht ih (h1 h)

theorem Leads.touches {α β : Type} {x : Res α} {k : α → State → Res β} (h : Leads (Touches io w) s x)
    (hk : ∀ v t, Leads (Touches io w) t (k v t)) : Leads (Touches io w) s (x.andThen k) :=
  Leads.seq (R := Touches io w) (fun h h' => Relation.ReflTransGen.trans h h') h hk

theorem checkStore_ok {k : Bool} {p : Nat} {v : Unit} (h : checkStore k p s = .ok v t) : t = s := by
  unfold checkStore at h; split at h <;> cases h; rfl

theorem checkStore_leads (k : Bool) (p : Nat) : Leads (Touches io w) s (checkStore k p s) := fun _ _ h => by
  rw [checkStore_ok h]

/-- The kinds of the devices, which nothing in a step changes. -/
def deviceKinds (s : State) : List DeviceKind := s.pio.devices.map fun d => d.kind

@[simp] theorem deviceKinds_setDeviceOwn (p : Byte) (n : Nat) : deviceKinds (setDeviceOwn p n s) = deviceKinds s := by
  simp only [deviceKinds, setDeviceOwn, List.map_map]
  refine List.map_congr_left fun d _ => ?_
  simp only [Function.comp]
  split <;> rfl

theorem tame_eq (s : State) :
    Machine.tame s = (s.cfg.hooks == Hooks.absent && (deviceKinds s).all fun k => k.known) := by
  simp only [Machine.tame, deviceKinds, List.all_map, Function.comp_def]

/-- No action of an agent changes the parameters or the kinds of the devices. -/
theorem applyAction_ok {x : Action} {v : Unit} (h : applyAction x s = .ok v t) :
    t.cfg = s.cfg ∧ deviceKinds t = deviceKinds s := by
  cases x
  case storeByte k p b =>
    simp only [applyAction, checkStore] at h
    split at h
    · cases k <;> cases h <;> exact ⟨rfl, rfl⟩
    · cases h
  case changePage b p k =>
    simp only [applyAction, Machine.changePage] at h
    by_cases hk : p.toNat < if k = true then s.cfg.ramPages else s.cfg.flashPages
    · rw [if_pos hk] at h; cases h; exact ⟨rfl, rfl⟩
    · rw [if_neg hk] at h; cases h
  case reset =>
    simp only [applyAction, resetCpu] at h
    split at h <;> cases h <;> exact ⟨rfl, rfl⟩
  case setDeviceOwn p n => cases h; exact ⟨rfl, deviceKinds_setDeviceOwn p n⟩
  all_goals cases h; exact ⟨rfl, rfl⟩

/-- What every action of a list respects, the list respects. -/
theorem applyActions_closed {R : State → State → Prop} (hr : ∀ s, R s s) (ht : ∀ {s t u}, R s t → R t u → R s u)
    (h1 : ∀ {s t} {x : Action}, applyAction x s = .ok () t → R s t) (xs : List Action) (s : State) :
    Leads R s (applyActions xs s) := by
  induction xs generalizing s with
  | nil => exact Leads.ok (hr s) _
  | cons x xs ih => exact Leads.seq (R := R) ht (fun _ _ => h1) fun _ t => ih t

theorem applyActions_ok {xs : List Action} {v : Unit} (h : applyActions xs s = .ok v t) :
    t.cfg = s.cfg ∧ deviceKinds t = deviceKinds s :=
  applyActions_closed (R := fun s t => t.cfg = s.cfg ∧ deviceKinds t = deviceKinds s) (fun _ => ⟨rfl, rfl⟩)
    (fun h h' => ⟨h'.1.trans h.1, h'.2.trans h.2⟩) (fun h => applyAction_ok h) xs s v t h

/-- What an agent of unknown behaviour does inside a port transfer. -/
theorem applyActions_leads (xs : List Action) (h : Machine.tame s = false) :
    Leads (Touches true w) s (applyActions xs s) := by
  induction xs generalizing s with
  | nil => exact Leads.ok .refl _
  | cons x xs ih =>
    intro v t e
    unfold applyActions at e
    cases hx : applyAction x s with
    | ok a u =>
      rw [hx] at e
      have hu := applyAction_ok hx
      refine (Touches.one (.agent s u x rfl h hx)).trans (ih ?_ v t e)
      rw [tame_eq] at h ⊢
      rw [hu.1, hu.2]; exact h
    | fault f => rw [hx] at e; cases e
    | refused r => rw [hx] at e; cases e

theorem callHook_leads (hook : Option Nat) (call : HookCall) (h : hook ≠ none → Machine.tame s = false) :
    Leads (Touches io w) s (callHook hook call s) := by
  unfold callHook
  split
  · exact Leads.ok (.one (.log s _)) _
  · rename_i k
    intro v t e
    have ht : Machine.tame (logLine (.event call) s) = false := h (by simp)
    refine (Touches.one (.log s (.event call))).trans ?_
    cases hx : runHandler k call (logLine (.event call) s) with
    | ok a u => rw [hx] at e; cases e; exact .one (.hook _ u _ ht hx)
    | fault f => rw [hx] at e; cases e
    | refused r => rw [hx] at e; cases e

/-- A hook that is present makes the state wild. -/
theorem wild_of_hook (h : s.cfg.hooks ≠ Hooks.absent) : tame s = false := by
  unfold tame
  rw [beq_eq_false_iff_ne.mpr h, Bool.false_and]

theorem raiseFlashViolation_leads (a : Word) (v : Byte) : Leads (Touches io w) s (raiseFlashViolation a v s) :=
  callHook_leads _ _ fun h => wild_of_hook fun e => h (by rw [e]; rfl)

theorem readBreak_leads (k : Bool) (p : Nat) : Leads (Touches io w) s (readBreak k p s) := by
  unfold readBreak
  split
  · exact callHook_leads _ _ fun h => wild_of_hook fun e => h (by rw [e]; rfl)
  · exact Leads.ok .refl _

theorem writeBreak_leads (k : Bool) (p : Nat) : Leads (Touches io w) s (writeBreak k p s) := by
  unfold writeBreak
  split
  · exact callHook_leads _ _ fun h => wild_of_hook fun e => h (by rw [e]; rfl)
  · exact Leads.ok .refl _

theorem flashGoto_leads (x : FlashState) : Leads (Touches io w) s (flashGoto x s) :=
  Leads.ok (.one (.sequencer s x s.mem.flashError)) _

theorem recover_leads (a : Word) (v : Byte) : Leads (Touches io w) s (recover a v s) :=
  (raiseFlashViolation_leads a v).touches fun _ _ => flashGoto_leads _

theorem flashStored_leads (a : Word) : Leads (Touches io w) s (flashStored a s) :=
  (checkStore_leads _ _).touches fun _ _ => Leads.ok .refl _

theorem flashRead_leads (a : Word) : Leads (Touches io w) s (flashRead a s) := by
  unfold flashRead
  split
  · split
    · exact Leads.ok .refl _
    · exact Leads.ok .refl _
    · exact Leads.ok .refl _
    · exact (recover_leads a 0).touches fun _ _ => flashStored_leads a
  · exact fun v t e => (Touches.one (.sequencer s .read s.mem.flashError)).trans (flashStored_leads a v t e)

theorem addTGated_touches (n : Nat) : Touches io w s (addTGated n s) := by
  unfold addTGated; split
  · exact .one (.time s n)
  · exact .refl

theorem setBus_touches (v : Byte) : Touches io w s (setBus v s) :=
  .one (.ctl s _ ⟨rfl, rfl, rfl⟩ (.inr ⟨rfl, rfl, rfl⟩))

theorem setDirection_touches (rd wr : Bool) : Touches io w s (setDirection rd wr s) :=
  .one (.ctl s _ ⟨rfl, rfl, rfl⟩ (.inr ⟨rfl, rfl, rfl⟩))

/-- What a byte read can do. -/
theorem readByte_leads (k : AccessKind) (a : Word) (s : State) : Leads (Touches io w) s (readByte k a s) := by
  intro v t e
  refine (setDirection_touches true false).trans ?_
  refine ((checkStore_leads _ _).touches fun _ t => ?_) v t e
  refine Leads.touches ?_ fun _ u => ?_
  · unfold readValue; split
    · exact flashRead_leads a
    · exact Leads.ok .refl _
  · intro v t e
    refine (addTGated_touches _).trans (((readBreak_leads _ _).touches fun _ _ => ?_) v t e)
    exact Leads.ok (setBus_touches _) _

theorem flashWriteAllowed_unlocked {p : Byte} (h : flashWriteAllowed s p = true) : s.mem.flashLocked = false := by
  simp only [flashWriteAllowed, Bool.and_eq_true, Bool.not_eq_true'] at h; exact h.1.1.1

/-- No primitive change makes a wild state tame or a tame one wild. -/
theorem Touch.tame (h : Touch io w s t) : tame t = tame s := by
  cases h with
  | store k p v => cases k <;> rfl
  | own p n => simp only [tame_eq, deviceKinds_setDeviceOwn]; rfl
  | agent t x hio h hx => simp only [tame_eq, applyAction_ok hx]
  | hook t xs h hx =>
    rw [tame_eq, tame_eq, ← (applyActions_ok hx).1, ← (applyActions_ok hx).2]; rfl
  | _ => rfl

theorem Touches.tame (h : Touches io w s t) : tame t = tame s := by
  induction h with
  | refl => rfl
  | tail _ h ih => rw [h.tame, ih]

/-- A write-break check leaves Flash unlocked, or the state is wild. -/
theorem writeBreak_unlocked {k : Bool} {p : Nat} {v : Unit} (h : writeBreak k p s = .ok v t)
    (hs : s.mem.flashLocked = false ∨ Machine.tame s = false) : t.mem.flashLocked = false ∨ Machine.tame t = false := by
  rcases hs with hs | hs
  · unfold writeBreak callHook at h
    cases hk : s.cfg.hooks.memWriteBreak with
    | none =>
      rw [hk] at h
      split at h <;> cases h <;> exact .inl hs
    | some j =>
      refine .inr ?_
      rw [(writeBreak_leads (io := false) (w := false) k p v t h).tame]
      exact wild_of_hook fun e => by rw [e] at hk; cases hk
  · exact .inr (by rw [(writeBreak_leads (io := false) (w := false) k p v t h).tame]; exact hs)

theorem chipEraseFrom_leads (n p : Nat) (h : s.mem.flashLocked = false ∨ Machine.tame s = false) :
    Leads (Touches io true) s (chipEraseFrom n p s) := by
  induction n generalizing p s with
  | zero => exact Leads.ok .refl _
  | succ n ih =>
    intro v t e
    unfold chipEraseFrom at e
    have hs : Touches io true s (storeSet false p 0xFF s) := .one (.store s false p 0xFF rfl (.inr h))
    refine hs.trans ?_
    cases hb : writeBreak false p (storeSet false p 0xFF s) with
    | ok a u =>
      rw [hb] at e
      exact (writeBreak_leads _ _ _ _ hb).trans (ih _ (writeBreak_unlocked hb h) v t e)
    | fault f => rw [hb] at e; cases e
    | refused r => rw [hb] at e; cases e

theorem chipErase_leads (h : s.mem.flashLocked = false) : Leads (Touches io true) s (chipErase s) := by
  unfold chipErase; split
  · exact chipEraseFrom_leads _ _ (.inl h)
  · exact Leads.ok (.one (.fill s _ _ _ rfl h)) _

theorem sectorErase_leads (a : Word) (h : s.mem.flashLocked = false) : Leads (Touches io true) s (sectorErase a s) := by
  unfold sectorErase; split
  · exact Leads.ok (.one (.fill s _ _ _ rfl h)) _
  · intro v t e; cases e

theorem byteProgram_leads (a : Word) (v : Byte) (h : s.mem.flashLocked = false) :
    Leads (Touches io true) s (byteProgram a v s) := by
  intro x t e
  unfold byteProgram checkStore at e
  split at e
  · dsimp only [andThen_ok] at e
    have hs := Touches.one (io := io) (.store s false (flashAddr s a) (storeGet s false (flashAddr s a) &&& v) rfl
      (.inr (.inl h)))
    split at e <;> cases e
    · exact hs.trans (.one (.sequencer _ _ true))
    · exact hs
  · cases e

theorem flashWrite_leads (a : Word) (v : Byte) (h : s.mem.flashLocked = false) :
    Leads (Touches io true) s (flashWrite a v s) := by
  unfold flashWrite
  split
  case h_4 => exact (byteProgram_leads a v h).touches fun _ _ => flashGoto_leads _
  case h_9 => exact (byteProgram_leads a v h).touches fun _ _ => flashGoto_leads _
  case h_7 =>
    split
    · exact (chipErase_leads h).touches fun _ _ => flashGoto_leads _
    · split
      · exact (sectorErase_leads a h).touches fun _ _ => flashGoto_leads _
      · split
        · exact flashGoto_leads _
        · exact recover_leads a v
  all_goals repeat' split
  all_goals first | exact flashGoto_leads _ | exact recover_leads a v

/-- What a byte write can do. -/
theorem memWrite_leads (a : Word) (v : Byte) (s : State) : Leads (Touches io true) s (memWrite a v s) := by
  intro x t e
  refine (setDirection_touches false true).trans ?_
  refine ((checkStore_leads _ _).touches fun _ t => ?_) x t e
  refine Leads.touches ?_ fun _ u => ?_
  · unfold writeEffect
    split
    · split
      · rename_i hk _
        rw [hk]
        exact Leads.ok (.one (.store t true _ v rfl (.inl rfl))) _
      · exact Leads.ok .refl _
    · split
      · rename_i hk
        exact flashWrite_leads a v (flashWriteAllowed_unlocked hk)
      · exact raiseFlashViolation_leads a v
  · intro x t e
    refine (addTGated_touches _).trans (((writeBreak_leads _ _).touches fun _ _ => ?_) x t e)
    exact Leads.ok (setBus_touches _) _

theorem deviceAt_mem {p : Byte} {d : Device} (h : deviceAt s p = some d) : d ∈ s.pio.devices :=
  List.mem_of_find?_eq_some h

theorem deviceRun_leads {p : Byte} {d : Device} (h : deviceAt s p = some d) : Leads (Touches true w) s (d.run s) := by
  have hc : ∀ c : Control, c.halt = s.ctl.halt ∧ c.pfx = s.ctl.pfx ∧ c.eiBlock = s.ctl.eiBlock →
      Touches true w s { s with ctl := c } := fun c h => .one (.ctl s c h (.inl rfl))
  unfold Device.run
  split
  · split
    · exact Leads.ok ((hc { s.ctl with output := false } ⟨rfl, rfl, rfl⟩).trans (.one (.own _ _ _))) _
    · split
      · exact Leads.ok (hc { s.ctl with bus := _, input := false } ⟨rfl, rfl, rfl⟩) _
      · exact Leads.ok .refl _
  · split
    · exact Leads.ok .refl _
    · exact Leads.ok (hc { s.ctl with interrupt := true, bus := _ } ⟨rfl, rfl, rfl⟩) _
  · rename_i hk
    split
    · refine Leads.ok ((hc { s.ctl with output := false } ⟨rfl, rfl, rfl⟩).trans (.one (.lock _ _ ?_))) _
      exact ⟨d, deviceAt_mem h, hk⟩
    · exact Leads.ok .refl _
  · rename_i k hk
    have ht : tame s = false := by
      have : (s.pio.devices.all fun d => d.kind.known) = false := by
        rw [List.all_eq_false]
        exact ⟨d, deviceAt_mem h, by rw [hk]; simp [DeviceKind.known]⟩
      unfold Machine.tame
      rw [this, Bool.and_false]
    exact (applyActions_leads _ ht).touches fun _ t => Leads.ok (.one (.own t _ _)) _

/-- What running a device can do. -/
theorem runDevice_leads (p : Byte) (s : State) : Leads (Touches true w) s (runDevice p s) := by
  unfold runDevice
  split
  · exact Leads.ok .refl _
  · rename_i d hd
    split
    · exact deviceRun_leads hd
    · exact Leads.ok .refl _

theorem callPioBreakpoint_leads (p : Byte) (s : State) : Leads (Touches true w) s (callPioBreakpoint p s) := by
  unfold callPioBreakpoint
  split
  · exact Leads.ok (.one (.log s _)) _
  · rename_i k hk
    intro v t e
    refine (Touches.one (.log s _)).trans (applyActions_leads _ ?_ v t e)
    exact wild_of_hook (s := s) fun e => by rw [e] at hk; cases hk

theorem dispatchPort_leads (p : Byte) (s : State) : Leads (Touches true w) s (dispatchPort p s) := by
  unfold dispatchPort
  split
  · exact Leads.ok .refl _
  · split
    · refine Leads.touches ?_ fun _ t => runDevice_leads p t
      split
      · exact callPioBreakpoint_leads p s
      · exact Leads.ok .refl _
    · exact Leads.ok .refl _

theorem setOutput_touches (v : Bool) : Touches true w s (setOutput v s) :=
  .one (.ctl s _ ⟨rfl, rfl, rfl⟩ (.inl rfl))

theorem setInput_touches (v : Bool) : Touches true w s (setInput v s) :=
  .one (.ctl s _ ⟨rfl, rfl, rfl⟩ (.inl rfl))

theorem endTransfer_touches (s : State) : Touches true w s (endTransfer s) :=
  .one (.ctl s _ ⟨rfl, rfl, rfl⟩ (.inl rfl))

/-- What the poll of a device can do. -/
theorem pollDevice_leads (p : Byte) (s : State) : Leads (Touches true w) s (pollDevice p s) :=
  (runDevice_leads p s).touches fun _ t => Leads.ok (endTransfer_touches t) _

/-- What an output can do. -/
theorem portOut_leads (p v : Byte) (s : State) : Leads (Touches true w) s (portOut p v s) := by
  intro x t e
  refine (setBus_touches v).trans (Touches.trans (.one (.cache _ v)) ((setOutput_touches true).trans ?_))
  refine ((dispatchPort_leads p _).touches fun _ t => Leads.ok ((setInput_touches s.ctl.input).trans ?_) _) x t e
  unfold finishOut; split
  · exact Touches.trans (.one (.log _ _)) (setOutput_touches false)
  · exact .refl

/-- What an input can do. -/
theorem portIn_leads (p : Byte) (s : State) : Leads (Touches true w) s (portIn p s) := by
  intro x t e
  refine (setInput_touches true).trans ?_
  refine ((dispatchPort_leads p _).touches fun _ t => Leads.ok ((setOutput_touches s.ctl.output).trans ?_) _) x t e
  refine Touches.trans ?_ (.one (.cache (finishIn p (setOutput s.ctl.output t)) _))
  unfold finishIn; split
  · exact Touches.trans (.one (.log _ _)) ((setInput_touches false).trans (setBus_touches _))
  · exact .refl

end

end Sys2Proof.Machine
end

