-- ==== Sys2Proof/Laws/Runs.lean ====
section
/-! SUPPORT. Everything a step can do, said once: a relation between states that every phase of the pipeline respects is
respected by `step`. -/

namespace Sys2Proof.Machine

/-- The relation allows everything a step can do. -/
structure Runs (R : State → State → Prop) : Prop where
  refl : ∀ s, R s s
  trans : ∀ {s t u}, R s t → R t u → R s u
  regs : ∀ s g, (s.regs.iff1 = s.regs.iff2 → g.iff1 = g.iff2) → R s { s with regs := g }
  ctl : ∀ s c, c.input = s.ctl.input → c.output = s.ctl.output → R s { s with ctl := c }
  time : ∀ s n, R s (addT n s)
  free : ∀ s n, R s { s with free := s.free + n }
  read : ∀ k a s, Leads R s (readByte k a s)
  write : ∀ a v s, Leads R s (memWrite a v s)
  portIn : ∀ p s, Leads R s (portIn p s)
  portOut : ∀ p v s, Leads R s (portOut p v s)
  poll : ∀ p s, Leads R s (pollDevice p s)
  check : ∀ s, Leads R s (checkExec s)
  unmap : ∀ a s, Leads R s (bootUnmapCheck a s)
  history : ∀ s, R s (historyAppend s)
  profile : ∀ a n s, R s (profileAttribute a n s)
  entry : ∀ i e s, R s (setEntry i e s)

namespace Runs

variable {R : State → State → Prop} (hR : Runs R) {s : State}
include hR

/-- What an instruction may do, a step may do. -/
theorem allows : Allows R true where
  refl := hR.refl
  trans := hR.trans
  regs := fun s g h => hR.regs s g fun hi => by
    simp only [Regs.special, Prod.mk.injEq] at h
    rw [h.2.2.1, h.2.2.2.1]; exact hi
  time := hR.time
  free := fun s => hR.free s 1
  read := fun a s => hR.read .read a s
  write := fun _ => hR.write
  portIn := hR.portIn
  portOut := hR.portOut

theorem seq {α β : Type} {x : Res α} {k : α → State → Res β} (h : Leads R s x) (hk : ∀ v t, Leads R t (k v t)) :
    Leads R s (x.andThen k) := h.andThen hR.allows hk

theorem doneRegs (n : Nat) {g : Regs} (h : s.regs.iff1 = s.regs.iff2 → g.iff1 = g.iff2) :
    Ends R s (done n { s with regs := g }) := by
  intro t e; cases e; exact hR.trans (hR.regs s g h) (hR.time _ _)

theorem doneCtl (n : Nat) {c : Control} (h : c.input = s.ctl.input ∧ c.output = s.ctl.output) :
    Ends R s (done n { s with ctl := c }) := by
  intro t e; cases e; exact hR.trans (hR.ctl s c h.1 h.2) (hR.time _ _)

theorem setPfx (p : Pfx) (s : State) : R s (setPfx p s) := hR.ctl s _ rfl rfl

theorem prefixed (p : Pfx) : Ends R s (.next (Machine.setPfx p s)) := by
  intro t e; cases e; exact hR.setPfx p s

theorem returnFromInterrupt (s : State) : Leads R s (returnFromInterrupt s) :=
  hR.seq (hR.allows.returnTo s) fun _ t =>
    Leads.ok (hR.regs t { t.regs with iff1 := t.regs.iff2 } fun _ => rfl) _

/-- An instruction that completes leads to a related state. -/
theorem exec (i : Instr) (s : State) : Ends R s (exec i s) := by
  by_cases hi : ordinary i = true
  · exact hR.allows.exec hi (fun _ => rfl) s
  · cases i
    case ldIA | ldRegRA | exAfAf | exx => exact hR.doneRegs _ fun h => h
    case di | im0 | im1 | im2 | im0Copy | im1Copy | im2Copy =>
      first | exact hR.doneRegs _ fun h => h | exact hR.doneRegs _ fun _ => rfl
    case ei =>
      intro t e; cases e
      exact hR.trans (hR.regs s { s.regs with iff1 := true, iff2 := true } fun _ => rfl)
        (hR.doneCtl (s := setIff true s) 4 (c := { s.ctl with eiBlock := true }) ⟨rfl, rfl⟩ _ rfl)
    case halt => exact hR.doneCtl _ ⟨rfl, rfl⟩
    case reti | retn | retnCopy => exact Leads.finish hR.allows (hR.returnFromInterrupt s) _
    case prefixDd | prefixFd | prefixEd => exact hR.prefixed _
    all_goals exact absurd rfl hi

theorem execRes (i : Instr) (s : State) : Leads R s (Res.ofOutcome (Machine.exec i s)) := by
  intro v t e
  cases h : Machine.exec i s with
  | next u => rw [h] at e; cases e; exact hR.exec i s _ h
  | fault f => rw [h] at e; cases e
  | refused r => rw [h] at e; cases e

theorem setPc (v : Word) (s : State) : R s (setPc v s) := hR.regs s _ fun h => h

theorem advanceR (n : Nat) (s : State) : R s (advanceR n s) := hR.regs s _ fun h => h

theorem opcodeFetch (s : State) : Leads R s (opcodeFetch s) :=
  hR.seq (hR.check s) fun _ t => hR.seq (hR.unmap _ t) fun _ u => hR.seq (hR.read _ _ u) fun _ x =>
    Leads.ok (hR.trans (hR.setPc _ x) (hR.advanceR 1 _)) _

theorem fetch8 (s : State) : Leads R s (fetch8 s) :=
  hR.seq (hR.read _ _ s) fun _ t => Leads.ok (hR.setPc _ t) _

theorem fetchOperands (entry : Entry) (s : State) : Leads R s (fetchOperands entry s) := by
  cases entry with
  | done i => exact Leads.ok (hR.refl s) _
  | take1 k => exact hR.seq (hR.fetch8 s) fun _ t => Leads.ok (hR.refl t) _
  | take2 k => exact hR.seq (hR.fetch8 s) fun _ t => hR.seq (hR.fetch8 t) fun _ u => Leads.ok (hR.refl u) _

theorem routeFrom (fuel n : Nat) (op : Byte) (s : State) : Leads R s (routeFrom fuel n op s) := by
  induction fuel generalizing n op s with
  | zero => intro v t e; cases e
  | succ fuel ih =>
    unfold Machine.routeFrom
    split
    · exact hR.seq (hR.execRes _ s) fun _ t => hR.seq (hR.opcodeFetch t) fun _ u => ih _ _ u
    · exact hR.seq (hR.execRes _ s) fun _ t => hR.seq (hR.opcodeFetch t) fun _ u =>
        hR.seq (hR.fetchOperands _ u) fun _ x => Leads.ok (hR.refl x) _
    · split
      · exact hR.seq (hR.execRes _ s) fun _ t => hR.seq (hR.opcodeFetch t) fun _ u => Leads.ok (hR.refl u) _
      · exact hR.seq (hR.execRes _ s) fun _ t => hR.seq (hR.fetch8 t) fun _ u => hR.seq (hR.fetch8 u) fun _ x =>
          Leads.ok (hR.refl x) _
    · exact hR.seq (hR.fetchOperands _ s) fun _ t => Leads.ok (hR.refl t) _

theorem execute (turns : Nat) (op : Byte) (s : State) : Leads R s (execute turns op s) :=
  hR.seq (hR.routeFrom _ _ op s) fun _ t => hR.seq (hR.execRes _ t) fun _ u => Leads.ok (hR.time u _) _

/-- A byte executed without a fetch. -/
theorem executeNoFetch (b : Byte) (s : State) : Leads R s (executeNoFetch b s) := fun v t e =>
  hR.trans (hR.setPfx .none s) (hR.seq (hR.execute _ b _) (fun _ t => Leads.ok (hR.setPfx .none t) _) v t e)

theorem runInstruction (s : State) : Leads R s (runInstruction s) := by
  unfold Machine.runInstruction
  split
  · exact Leads.ok (hR.trans (hR.advanceR _ s) (hR.time _ _)) _
  · intro v t e
    refine hR.trans (hR.setPfx .none s) (hR.seq (hR.opcodeFetch _) (fun op t => ?_) v t e)
    exact hR.seq (hR.execute _ op t) fun _ u => Leads.ok (hR.setPfx .none u) _

theorem acknowledge (ran : Option Instr) (s : State) : R s (acknowledge ran s) := by
  refine hR.trans (hR.ctl s { s.ctl with halt := false } rfl rfl) ?_
  refine hR.trans (hR.regs _ { s.regs with iff1 := false, iff2 := false } fun _ => rfl) ?_
  refine hR.trans (hR.advanceR 1 _) ?_
  show R _ (specialFlagFix ran _)
  unfold specialFlagFix
  split
  · exact hR.regs _ _ fun h => h
  · exact hR.refl _

/-- The delivery of an interrupt. -/
theorem deliverInterrupt (ran : Option Instr) (s : State) :
    Leads R s (deliverInterrupt Machine.executeNoFetch ran s) := by
  intro v t e
  refine hR.trans (hR.acknowledge ran s) ?_
  revert v t e
  generalize h : Machine.acknowledge ran s = u
  unfold Machine.deliverInterrupt
  rw [h]
  dsimp only
  split
  · exact fun v t e => hR.trans (hR.time u _) (hR.executeNoFetch _ _ v t e)
  · exact hR.seq (hR.allows.push16 rfl _ u) fun _ x => Leads.ok (hR.trans (hR.setPc _ x) (hR.time _ _)) _
  · exact hR.seq (hR.allows.push16 rfl _ u) fun _ x => hR.seq (hR.allows.memRead16 _ x) fun _ y =>
      Leads.ok (hR.trans (hR.setPc _ y) (hR.time _ _)) _

theorem deliverIfDue (ran : Option Instr) (s : State) : Leads R s (deliverIfDue ran s) := by
  unfold Machine.deliverIfDue
  split
  · exact hR.deliverInterrupt ran s
  · exact Leads.ok (hR.refl s) _

theorem pollEntry (i : Nat) (s : State) : Leads R s (pollEntry i s) := by
  unfold Machine.pollEntry
  split
  · exact Leads.ok (hR.refl s) _
  · split
    · exact hR.seq (hR.poll _ s) fun _ t => Leads.ok (hR.entry _ _ t) _
    · exact Leads.ok (hR.entry _ _ s) _

theorem pollFrom (n i : Nat) (s : State) : Leads R s (pollFrom n i s) := by
  induction n generalizing i s with
  | zero => exact Leads.ok (hR.refl s) _
  | succ n ih => exact hR.seq (hR.pollEntry i s) fun _ t => ih (i + 1) t

theorem profileIfEnabled (a : Word) (n : Nat) (s : State) : R s (profileIfEnabled a n s) := by
  unfold Machine.profileIfEnabled; split
  · exact hR.profile _ _ s
  · exact hR.refl s

theorem finishStep (a : Word) (n : Nat) (ran : Option Instr) (s : State) : Leads R s (finishStep a n ran s) :=
  hR.seq (hR.pollFrom _ _ s) fun _ t => hR.seq (hR.deliverIfDue ran t) fun _ u =>
    Leads.ok (hR.trans (hR.profileIfEnabled _ _ u) (hR.setPfx .none _)) _

/-- A step that goes through leads to a related state. -/
theorem step {t : State} (h : step s = .next t) : R s t := by
  have hr : Leads R s (runStep s) := by
    intro v t e
    refine hR.trans (hR.ctl s { s.ctl with interrupt := false, eiBlock := false } rfl rfl) ?_
    refine hR.trans (hR.history (clearStepFlags s)) ?_
    exact hR.seq (hR.runInstruction (historyAppend (clearStepFlags s))) (fun _ t => hR.finishStep _ _ _ t) v t e
  unfold Machine.step at h
  cases hx : runStep s with
  | ok v u => rw [hx] at h; cases h; exact hr v _ hx
  | fault f => rw [hx] at h; cases h
  | refused r => rw [hx] at h; cases h

end Runs

/-- A relation that every primitive change of the accesses and of the pipeline respects allows everything a step can do. -/
theorem Runs.of {R : State → State → Prop} (hr : ∀ s, R s s) (ht : ∀ {s t u}, R s t → R t u → R s u)
    (touch : ∀ {s t}, Touch true true s t → R s t)
    (regs : ∀ s g, (s.regs.iff1 = s.regs.iff2 → g.iff1 = g.iff2) → R s { s with regs := g })
    (ctl : ∀ s c, R s { s with ctl := c })
    (free : ∀ s n, R s { s with free := s.free + n })
    (reset : ∀ s t v, resetCpu s = .ok v t → R s t)
    (unmap : ∀ s, R s { s with mem := { s.mem with bootUnmapDone := true } })
    (slot : ∀ s n k p, R s { s with mem := { s.mem with normal := s.mem.normal.setSlot n (BankSlot.fresh k p) } })
    (history : ∀ s, R s (historyAppend s))
    (profile : ∀ a n s, R s (profileAttribute a n s))
    (entry : ∀ i e s, R s (setEntry i e s)) : Runs R := by
  have hT : ∀ {α : Type} {s : State} {x : Res α}, Leads (Touches true true) s x → Leads R s x :=
    fun h v t e => touches_closed hr ht touch (h v t e)
  refine ⟨hr, ht, regs, fun s c _ _ => ctl s c, fun s n => touch (.time s n), free,
    fun k a s => hT (readByte_leads k a s), fun a v s => hT (memWrite_leads a v s), fun p s => hT (portIn_leads p s),
    fun p v s => hT (portOut_leads p v s), fun p s => hT (pollDevice_leads p s), ?_, ?_, history, profile, entry⟩
  · intro s v t h
    unfold checkExec at h
    split at h
    · cases h; exact hr _
    · unfold raiseExecViolation at h
      split at h
      · exact ht (touch (.log s _)) (reset _ _ _ h)
      · rename_i k hk
        refine hT (s := s) (callHook_leads (some k) (.execViolation s.regs.pc) fun _ => wild_of_hook fun e => ?_) v t h
        rw [e] at hk; cases hk
  · intro a s v t h
    unfold bootUnmapCheck at h
    split at h
    · unfold changePage at h
      by_cases hp : ((0 : Byte).toNat < if false = true then s.cfg.ramPages else s.cfg.flashPages)
      · rw [if_pos hp] at h; cases h; exact ht (slot s 0 false 0) (unmap _)
      · rw [if_neg hp] at h; cases h
    · cases h; exact hr _

end Sys2Proof.Machine
end

