-- ==== Sys2Proof/Tests/Slice0.lean ====
section
/-! SUPPORT. Tests: ill-formed terms, words written from the encodings of spec/opcode_table.json, single steps with the results
of spec/95_test_vectors.md, and for every statement with hypotheses a state and operands that meet them. -/

namespace Sys2Proof.Machine.Tests

/-! ## Ill-formed terms: one for each check of `WellFormed` -/

theorem test_wellFormed_ldDdNn : WellFormed (.ldDdNn .hl 0x1234) = false := by decide

theorem test_wellFormed_incSs : WellFormed (.incSs .hl) = false := by decide

theorem test_wellFormed_decSs : WellFormed (.decSs .hl) = false := by decide

theorem test_wellFormed_popQq : WellFormed (.popQq .hl) = false := by decide

theorem test_wellFormed_pushQq : WellFormed (.pushQq .hl) = false := by decide

theorem test_wellFormed_ldPIxHalf : WellFormed (.ldPIxHalf .h .lo) = false ∧ WellFormed (.ldPIxHalf .l .hi) = false := by
  decide

theorem test_wellFormed_ldPIyHalf : WellFormed (.ldPIyHalf .h .lo) = false ∧ WellFormed (.ldPIyHalf .l .hi) = false := by
  decide

theorem test_wellFormed_negCopy : WellFormed (.negCopy 0) = false := by decide

theorem test_wellFormed_retnCopy : WellFormed (.retnCopy 0) = false ∧ WellFormed (.retnCopy 1) = false := by decide

theorem test_wellFormed_im0Copy : WellFormed (.im0Copy 0) = false ∧ WellFormed (.im0Copy 2) = false := by decide

/-! ## Words: the fixed bits and fields of each row's encoding, written out; operand bytes in hexadecimal -/

/-- Each word decodes to its instruction, whole, and is what the instruction encodes to. -/
def reads (rows : List (List Byte × Instr)) : Bool :=
  rows.all fun r =>
    encode r.2 == r.1 &&
      match decode r.1 with
      | .ok d => d.instr == r.2 && d.rest == [] && d.prefixes == r.2.hasIndexPrefix.toNat
      | .error _ => false

theorem test_words_40_load8_a :
  reads [
    ([0b00000010], .ldMemBcA), ([0b00010010], .ldMemDeA), ([0b00110010, 0x34, 0x92], .ldMemNnA 0x9234),
    ([0b00001010], .ldAMemBc), ([0b00011010], .ldAMemDe), ([0b00111010, 0x34, 0x92], .ldAMemNn 0x9234),
    ([0b00_111_110, 0xA7], .ldRN .a 0xA7), ([0b11011101, 0b00100110, 0xA7], .ldIxhN 0xA7),
    ([0b11011101, 0b00101110, 0xA7], .ldIxlN 0xA7), ([0b11111101, 0b00100110, 0xA7], .ldIyhN 0xA7),
    ([0b11111101, 0b00101110, 0xA7], .ldIylN 0xA7), ([0b00110110, 0xA7], .ldMemHlN 0xA7),
    ([0b11011101, 0b00110110, 0x83, 0xA7], .ldMemIxN 0x83 0xA7),
    ([0b11111101, 0b00110110, 0x83, 0xA7], .ldMemIyN 0x83 0xA7), ([0b01_010_111], .ldRR .d .a),
    ([0b11011101, 0b01_101_100], .ldIxHalfP .lo .h), ([0b11011101, 0b01_011_100], .ldPIxHalf .e .hi),
    ([0b11111101, 0b01_101_011], .ldIyHalfP .lo .e), ([0b11111101, 0b01_111_100], .ldPIyHalf .a .hi),
    ([0b01_000_110], .ldRMemHl .b), ([0b11011101, 0b01_011_110, 0x83], .ldRMemIx .e 0x83),
    ([0b11111101, 0b01_111_110, 0x83], .ldRMemIy .a 0x83), ([0b01110_010], .ldMemHlR .d),
    ([0b11011101, 0b01110_101, 0x83], .ldMemIxR 0x83 .l), ([0b11111101, 0b01110_001, 0x83], .ldMemIyR 0x83 .c)] = true := by
  decide

theorem test_words_40_load8_b :
  reads [
    ([0b11101101, 0b01000111], .ldIA), ([0b11101101, 0b01001111], .ldRegRA), ([0b11101101, 0b01010111], .ldAI),
    ([0b11101101, 0b01011111], .ldARegR)] = true := by
  decide

theorem test_words_41_load16 :
  reads [
    ([0b00_01_0001, 0x34, 0x92], .ldDdNn .de 0x9234), ([0b00100001, 0x34, 0x92], .ldHlNn 0x9234),
    ([0b11011101, 0b00100001, 0x34, 0x92], .ldIxNn 0x9234), ([0b11111101, 0b00100001, 0x34, 0x92], .ldIyNn 0x9234),
    ([0b00100010, 0x34, 0x92], .ldMemNnHl 0x9234), ([0b11011101, 0b00100010, 0x34, 0x92], .ldMemNnIx 0x9234),
    ([0b11111101, 0b00100010, 0x34, 0x92], .ldMemNnIy 0x9234), ([0b00101010, 0x34, 0x92], .ldHlMemNn 0x9234),
    ([0b11011101, 0b00101010, 0x34, 0x92], .ldIxMemNn 0x9234),
    ([0b11111101, 0b00101010, 0x34, 0x92], .ldIyMemNn 0x9234), ([0b11_01_0001], .popQq .de),
    ([0b11100001], .popHl), ([0b11011101, 0b11100001], .popIx), ([0b11111101, 0b11100001], .popIy),
    ([0b11111001], .ldSpHl), ([0b11011101, 0b11111001], .ldSpIx), ([0b11111101, 0b11111001], .ldSpIy),
    ([0b11_01_0101], .pushQq .de), ([0b11100101], .pushHl), ([0b11011101, 0b11100101], .pushIx),
    ([0b11111101, 0b11100101], .pushIy), ([0b11101101, 0b01_00_0011, 0x34, 0x92], .ldMemNnDd 0x9234 .bc),
    ([0b11101101, 0b01_11_1011, 0x34, 0x92], .ldDdMemNn .sp 0x9234)] = true := by
  decide

theorem test_words_42_exchange_block :
  reads [
    ([0b00001000], .exAfAf), ([0b11011001], .exx), ([0b11100011], .exMemSpHl),
    ([0b11011101, 0b11100011], .exMemSpIx), ([0b11111101, 0b11100011], .exMemSpIy), ([0b11101011], .exDeHl),
    ([0b11101101, 0b10100000], .ldi), ([0b11101101, 0b10100001], .cpi), ([0b11101101, 0b10101000], .ldd),
    ([0b11101101, 0b10101001], .cpd), ([0b11101101, 0b10110000], .ldir), ([0b11101101, 0b10110001], .cpir),
    ([0b11101101, 0b10111000], .lddr), ([0b11101101, 0b10111001], .cpdr)] = true := by
  decide

theorem test_words_43_arith8_a :
  reads [
    ([0b00_001_100], .incR .c), ([0b11011101, 0b00100100], .incIxh), ([0b11011101, 0b00101100], .incIxl),
    ([0b11111101, 0b00100100], .incIyh), ([0b11111101, 0b00101100], .incIyl), ([0b00110100], .incMemHl),
    ([0b11011101, 0b00110100, 0x83], .incMemIx 0x83), ([0b11111101, 0b00110100, 0x83], .incMemIy 0x83),
    ([0b00_000_101], .decR .b), ([0b11011101, 0b00100101], .decIxh), ([0b11011101, 0b00101101], .decIxl),
    ([0b11111101, 0b00100101], .decIyh), ([0b11111101, 0b00101101], .decIyl), ([0b00110101], .decMemHl),
    ([0b11011101, 0b00110101, 0x83], .decMemIx 0x83), ([0b11111101, 0b00110101, 0x83], .decMemIy 0x83),
    ([0b10000_011], .addAR .e), ([0b11011101, 0b10000100], .addAIxh), ([0b11011101, 0b10000101], .addAIxl),
    ([0b11111101, 0b10000100], .addAIyh), ([0b11111101, 0b10000101], .addAIyl), ([0b10000110], .addAMemHl),
    ([0b11011101, 0b10000110, 0x83], .addAMemIx 0x83), ([0b11111101, 0b10000110, 0x83], .addAMemIy 0x83),
    ([0b11000110, 0xA7], .addAN 0xA7)] = true := by
  decide

theorem test_words_43_arith8_b :
  reads [
    ([0b10001_000], .adcAR .b), ([0b11011101, 0b10001100], .adcAIxh), ([0b11011101, 0b10001101], .adcAIxl),
    ([0b11111101, 0b10001100], .adcAIyh), ([0b11111101, 0b10001101], .adcAIyl), ([0b10001110], .adcAMemHl),
    ([0b11011101, 0b10001110, 0x83], .adcAMemIx 0x83), ([0b11111101, 0b10001110, 0x83], .adcAMemIy 0x83),
    ([0b11001110, 0xA7], .adcAN 0xA7), ([0b10010_010], .subAR .d), ([0b11011101, 0b10010100], .subAIxh),
    ([0b11011101, 0b10010101], .subAIxl), ([0b11111101, 0b10010100], .subAIyh),
    ([0b11111101, 0b10010101], .subAIyl), ([0b10010110], .subAMemHl),
    ([0b11011101, 0b10010110, 0x83], .subAMemIx 0x83), ([0b11111101, 0b10010110, 0x83], .subAMemIy 0x83),
    ([0b11010110, 0xA7], .subAN 0xA7), ([0b10011_111], .sbcAR .a), ([0b11011101, 0b10011100], .sbcAIxh),
    ([0b11011101, 0b10011101], .sbcAIxl), ([0b11111101, 0b10011100], .sbcAIyh),
    ([0b11111101, 0b10011101], .sbcAIyl), ([0b10011110], .sbcAMemHl),
    ([0b11011101, 0b10011110, 0x83], .sbcAMemIx 0x83)] = true := by
  decide

theorem test_words_43_arith8_c :
  reads [
    ([0b11111101, 0b10011110, 0x83], .sbcAMemIy 0x83), ([0b11011110, 0xA7], .sbcAN 0xA7),
    ([0b10100_001], .andAR .c), ([0b11011101, 0b10100100], .andAIxh), ([0b11011101, 0b10100101], .andAIxl),
    ([0b11111101, 0b10100100], .andAIyh), ([0b11111101, 0b10100101], .andAIyl), ([0b10100110], .andAMemHl),
    ([0b11011101, 0b10100110, 0x83], .andAMemIx 0x83), ([0b11111101, 0b10100110, 0x83], .andAMemIy 0x83),
    ([0b11100110, 0xA7], .andAN 0xA7), ([0b10101_011], .xorAR .e), ([0b11011101, 0b10101100], .xorAIxh),
    ([0b11011101, 0b10101101], .xorAIxl), ([0b11111101, 0b10101100], .xorAIyh),
    ([0b11111101, 0b10101101], .xorAIyl), ([0b10101110], .xorAMemHl),
    ([0b11011101, 0b10101110, 0x83], .xorAMemIx 0x83), ([0b11111101, 0b10101110, 0x83], .xorAMemIy 0x83),
    ([0b11101110, 0xA7], .xorAN 0xA7), ([0b10110_000], .orAR .b), ([0b11011101, 0b10110100], .orAIxh),
    ([0b11011101, 0b10110101], .orAIxl), ([0b11111101, 0b10110100], .orAIyh), ([0b11111101, 0b10110101], .orAIyl)] = true := by
  decide

theorem test_words_43_arith8_d :
  reads [
    ([0b10110110], .orAMemHl), ([0b11011101, 0b10110110, 0x83], .orAMemIx 0x83),
    ([0b11111101, 0b10110110, 0x83], .orAMemIy 0x83), ([0b11110110, 0xA7], .orAN 0xA7), ([0b10111_010], .cpAR .d),
    ([0b11011101, 0b10111100], .cpAIxh), ([0b11011101, 0b10111101], .cpAIxl), ([0b11111101, 0b10111100], .cpAIyh),
    ([0b11111101, 0b10111101], .cpAIyl), ([0b10111110], .cpAMemHl),
    ([0b11011101, 0b10111110, 0x83], .cpAMemIx 0x83), ([0b11111101, 0b10111110, 0x83], .cpAMemIy 0x83),
    ([0b11111110, 0xA7], .cpAN 0xA7)] = true := by
  decide

theorem test_words_44_cpu_control :
  reads [
    ([0b00000000], .nop), ([0b00100111], .daa), ([0b00101111], .cpl), ([0b00110111], .scf), ([0b00111111], .ccf),
    ([0b01110110], .halt), ([0b11110011], .di), ([0b11111011], .ei), ([0b11101101, 0b01000100], .neg),
    ([0b11101101, 0b01_111_100], .negCopy 7), ([0b11101101, 0b01_110_101], .retnCopy 6),
    ([0b11101101, 0b01000110], .im0), ([0b11101101, 0b01010110], .im1), ([0b11101101, 0b01011110], .im2),
    ([0b11101101, 0b01_100_110], .im0Copy 4), ([0b11101101, 0b01110110], .im1Copy),
    ([0b11101101, 0b01111110], .im2Copy), ([0b11101101, 0b0111_1_111], .nopEd7 1),
    ([0b11101101, 0b00_100100], .nopEdLow 36), ([0b11101101, 0b11_100111], .nopEdHigh 39),
    ([0b11101101, 0b100_01010], .nopEdMid 10), ([0b11101101, 0b101_01_1_11], .nopEdBlock 1 3)] = true := by
  decide

theorem test_words_45_arith16 :
  reads [
    ([0b00_01_1001], .addHlSs .de), ([0b11011101, 0b00_00_1001], .addIxPp .bc),
    ([0b11111101, 0b00_11_1001], .addIyRr .sp), ([0b00_01_0011], .incSs .de), ([0b00100011], .incHl),
    ([0b11011101, 0b00100011], .incIx), ([0b11111101, 0b00100011], .incIy), ([0b00_01_1011], .decSs .de),
    ([0b00101011], .decHl), ([0b11011101, 0b00101011], .decIx), ([0b11111101, 0b00101011], .decIy),
    ([0b11101101, 0b01_10_0010], .sbcHlSs .hl), ([0b11101101, 0b01_01_1010], .adcHlSs .de)] = true := by
  decide

theorem test_words_46_rotate_shift_a :
  reads [
    ([0b00000111], .rlca), ([0b00001111], .rrca), ([0b00010111], .rla), ([0b00011111], .rra),
    ([0b11001011, 0b00000_101], .rlcR .l), ([0b11001011, 0b00000110], .rlcMemHl),
    ([0b11001011, 0b00001_100], .rrcR .h), ([0b11001011, 0b00001110], .rrcMemHl),
    ([0b11001011, 0b00010_011], .rlR .e), ([0b11001011, 0b00010110], .rlMemHl),
    ([0b11001011, 0b00011_010], .rrR .d), ([0b11001011, 0b00011110], .rrMemHl),
    ([0b11001011, 0b00100_001], .slaR .c), ([0b11001011, 0b00100110], .slaMemHl),
    ([0b11001011, 0b00101_000], .sraR .b), ([0b11001011, 0b00101110], .sraMemHl),
    ([0b11001011, 0b00110_111], .sllR .a), ([0b11001011, 0b00110110], .sllMemHl),
    ([0b11001011, 0b00111_101], .srlR .l), ([0b11001011, 0b00111110], .srlMemHl),
    ([0b11011101, 0b11001011, 0x83, 0b00000110], .rlcMemIx 0x83),
    ([0b11011101, 0b11001011, 0x83, 0b00000_100], .rlcMemIxR 0x83 .h),
    ([0b11011101, 0b11001011, 0x83, 0b00001110], .rrcMemIx 0x83),
    ([0b11011101, 0b11001011, 0x83, 0b00001_011], .rrcMemIxR 0x83 .e),
    ([0b11011101, 0b11001011, 0x83, 0b00010110], .rlMemIx 0x83)] = true := by
  decide

theorem test_words_46_rotate_shift_b :
  reads [
    ([0b11011101, 0b11001011, 0x83, 0b00010_010], .rlMemIxR 0x83 .d),
    ([0b11011101, 0b11001011, 0x83, 0b00011110], .rrMemIx 0x83),
    ([0b11011101, 0b11001011, 0x83, 0b00011_001], .rrMemIxR 0x83 .c),
    ([0b11011101, 0b11001011, 0x83, 0b00100110], .slaMemIx 0x83),
    ([0b11011101, 0b11001011, 0x83, 0b00100_000], .slaMemIxR 0x83 .b),
    ([0b11011101, 0b11001011, 0x83, 0b00101110], .sraMemIx 0x83),
    ([0b11011101, 0b11001011, 0x83, 0b00101_111], .sraMemIxR 0x83 .a),
    ([0b11011101, 0b11001011, 0x83, 0b00110110], .sllMemIx 0x83),
    ([0b11011101, 0b11001011, 0x83, 0b00110_101], .sllMemIxR 0x83 .l),
    ([0b11011101, 0b11001011, 0x83, 0b00111110], .srlMemIx 0x83),
    ([0b11011101, 0b11001011, 0x83, 0b00111_100], .srlMemIxR 0x83 .h),
    ([0b11111101, 0b11001011, 0x83, 0b00000110], .rlcMemIy 0x83),
    ([0b11111101, 0b11001011, 0x83, 0b00000_000], .rlcMemIyR 0x83 .b),
    ([0b11111101, 0b11001011, 0x83, 0b00001110], .rrcMemIy 0x83),
    ([0b11111101, 0b11001011, 0x83, 0b00001_111], .rrcMemIyR 0x83 .a),
    ([0b11111101, 0b11001011, 0x83, 0b00010110], .rlMemIy 0x83),
    ([0b11111101, 0b11001011, 0x83, 0b00010_101], .rlMemIyR 0x83 .l),
    ([0b11111101, 0b11001011, 0x83, 0b00011110], .rrMemIy 0x83),
    ([0b11111101, 0b11001011, 0x83, 0b00011_100], .rrMemIyR 0x83 .h),
    ([0b11111101, 0b11001011, 0x83, 0b00100110], .slaMemIy 0x83),
    ([0b11111101, 0b11001011, 0x83, 0b00100_011], .slaMemIyR 0x83 .e),
    ([0b11111101, 0b11001011, 0x83, 0b00101110], .sraMemIy 0x83),
    ([0b11111101, 0b11001011, 0x83, 0b00101_010], .sraMemIyR 0x83 .d),
    ([0b11111101, 0b11001011, 0x83, 0b00110110], .sllMemIy 0x83),
    ([0b11111101, 0b11001011, 0x83, 0b00110_001], .sllMemIyR 0x83 .c)] = true := by
  decide

theorem test_words_46_rotate_shift_c :
  reads [
    ([0b11111101, 0b11001011, 0x83, 0b00111110], .srlMemIy 0x83),
    ([0b11111101, 0b11001011, 0x83, 0b00111_000], .srlMemIyR 0x83 .b), ([0b11101101, 0b01100111], .rrd),
    ([0b11101101, 0b01101111], .rld)] = true := by
  decide

theorem test_words_47_bit :
  reads [
    ([0b11001011, 0b01_000_111], .bitBR 0 .a), ([0b11001011, 0b01_011_110], .bitBMemHl 3),
    ([0b11001011, 0b10_110_101], .resBR 6 .l), ([0b11001011, 0b10_001_110], .resBMemHl 1),
    ([0b11001011, 0b11_100_100], .setBR 4 .h), ([0b11001011, 0b11_111_110], .setBMemHl 7),
    ([0b11011101, 0b11001011, 0x83, 0b01_010_110], .bitBMemIx 2 0x83),
    ([0b11011101, 0b11001011, 0x83, 0b01_101_101], .bitBMemIxCopy 5 0x83 .l),
    ([0b11011101, 0b11001011, 0x83, 0b10_000_110], .resBMemIx 0 0x83),
    ([0b11011101, 0b11001011, 0x83, 0b10_011_100], .resBMemIxR 3 0x83 .h),
    ([0b11011101, 0b11001011, 0x83, 0b11_110_110], .setBMemIx 6 0x83),
    ([0b11011101, 0b11001011, 0x83, 0b11_001_011], .setBMemIxR 1 0x83 .e),
    ([0b11111101, 0b11001011, 0x83, 0b01_100_110], .bitBMemIy 4 0x83),
    ([0b11111101, 0b11001011, 0x83, 0b01_111_001], .bitBMemIyCopy 7 0x83 .c),
    ([0b11111101, 0b11001011, 0x83, 0b10_010_110], .resBMemIy 2 0x83),
    ([0b11111101, 0b11001011, 0x83, 0b10_101_000], .resBMemIyR 5 0x83 .b),
    ([0b11111101, 0b11001011, 0x83, 0b11_000_110], .setBMemIy 0 0x83),
    ([0b11111101, 0b11001011, 0x83, 0b11_011_111], .setBMemIyR 3 0x83 .a)] = true := by
  decide

theorem test_words_48_jump_call_return :
  reads [
    ([0b00010000, 0xFB], .djnz 0xFB), ([0b00011000, 0xFB], .jr 0xFB), ([0b00100000, 0xFB], .jrNz 0xFB),
    ([0b00101000, 0xFB], .jrZ 0xFB), ([0b00110000, 0xFB], .jrNc 0xFB), ([0b00111000, 0xFB], .jrC 0xFB),
    ([0b11_110_000], .retCc .p), ([0b11001001], .ret), ([0b11101001], .jpMemHl),
    ([0b11011101, 0b11101001], .jpMemIx), ([0b11111101, 0b11101001], .jpMemIy),
    ([0b11_101_010, 0x34, 0x92], .jpCcNn .pe 0x9234), ([0b11000011, 0x34, 0x92], .jpNn 0x9234),
    ([0b11_011_100, 0x34, 0x92], .callCcNn .c 0x9234), ([0b11001101, 0x34, 0x92], .callNn 0x9234),
    ([0b11_101_111], .rst 5), ([0b11101101, 0b01000101], .retn), ([0b11101101, 0b01001101], .reti)] = true := by
  decide

theorem test_words_49_io :
  reads [
    ([0b11010011, 0xA7], .outNA 0xA7), ([0b11011011, 0xA7], .inAN 0xA7), ([0b11101101, 0b01_000_000], .inRC .b),
    ([0b11101101, 0b01110000], .inFC), ([0b11101101, 0b01_111_001], .outCR .a), ([0b11101101, 0b01110001], .outC0),
    ([0b11101101, 0b10100010], .ini), ([0b11101101, 0b10100011], .outi), ([0b11101101, 0b10101010], .ind),
    ([0b11101101, 0b10101011], .outd), ([0b11101101, 0b10110010], .inir), ([0b11101101, 0b10110011], .otir),
    ([0b11101101, 0b10111010], .indr), ([0b11101101, 0b10111011], .otdr)] = true := by
  decide

/-- The five rows of status `prefix`; a lone 0xCB is one byte in both its rows. -/
theorem test_words_prefix :
    decodeTableWord 8 0b11011101 = some .prefixDd ∧ decodeTableWord 8 0b11111101 = some .prefixFd ∧
      decodeTableWord 8 0b11101101 = some .prefixEd ∧ decodeTableWord 8 0b11001011 = some .prefixCb := by decide

/-- R175: only the last index prefix counts, and 0xED drops it. -/
theorem test_redundant_prefixes :
    decode [0xDD, 0xFD, 0x21, 0x34, 0x12] = .ok ⟨.ldIyNn 0x1234, 2, []⟩ ∧
      decode [0xDD, 0xED, 0x44, 0x00] = .ok ⟨.neg, 1, [0x00]⟩ := by decide

/-- A string that ends inside an instruction is refused. -/
theorem test_truncated : (decode [0xDD, 0xCB, 0x01]).toOption = none ∧ (decode []).toOption = none := by decide

/-! ## Single steps -/

/-- The register file of H0. -/
def r0 : Regs := { Regs.reset with pc := 0x8000 }

/-- The state H0 of spec/95_test_vectors.md; its Flash bytes are 0x00 here and not 0xFF. -/
def h0 : State :=
  { State.reset with
    regs := r0
    mem := { State.reset.mem with
      bootUnmapDone := true
      normal := { State.reset.mem.normal with slot0 := BankSlot.fresh false 0, slot2 := BankSlot.fresh true 1 } } }

/-- Bytes put where the mapping of `s` has these addresses. -/
def poke (bytes : List (Word × Byte)) (s : State) : State :=
  bytes.foldl (fun t b => storeSet (resolve s b.1).1 (resolve s b.1).2 b.2 t) s

/-- No device. -/
def Pio.none : Pio := State.reset.pio

/-- The latch of 95_test_vectors at port 0x10. -/
def latchAt10 (v : Nat) : Pio := { Pio.none with devices := [⟨0x10, true, false, false, .latch, 0, v⟩] }

/-- The interrupt source of 95_test_vectors at port 0x30, polled in every step. -/
def irqAt30 (vec : Byte) : Pio :=
  { Pio.none with devices := [⟨0x30, true, false, false, .irq vec, 0, 0⟩], intEntries := [⟨0x30, 1, 1⟩] }

/-- H0 with these registers, bytes and devices, and these bytes at its program counter. -/
def start (bytes : List Byte) (pio : Pio) (g : Regs) (data : List (Word × Byte)) : State :=
  placeBytes h0 bytes 0x8000 (poke data { h0 with regs := g, pio := pio })

/-- One step ends with exactly the registers `g'`, these bytes in memory and these T-states. -/
def runs (bytes : List Byte) (pio : Pio) (g : Regs) (data : List (Word × Byte)) (g' : Regs)
    (stored : List (Word × Byte)) (T : Nat) : Bool :=
  match step (start bytes pio g data) with
  | .next t => t.regs == g' && stored.all (fun b => byteAt t b.1 == b.2) && t.timer.tstates == T
  | _ => false

/-- V5, `LD H,(HL)`. -/
theorem test_ld_r_hl_old_address : runs [0x66] Pio.none { r0 with h := 0xC0, l := 0x10 } [(0xC010, 0x33)]
    { r0 with h := 0x33, l := 0x10, pc := 0x8001, r := 0x01 } [(0xC010, 0x33)] 7 = true := by decide

/-- V7, `LD H,(IY+2)`. -/
theorem test_ld_h_iy : runs [0xFD, 0x66, 0x02] Pio.none { r0 with iy := 0xC000 } [(0xC002, 0x9C)]
    { r0 with iy := 0xC000, h := 0x9C, pc := 0x8003, r := 0x02 } [(0xC002, 0x9C)] 19 = true := by decide

/-- V10, `LD (IY+2),E`. -/
theorem test_ld_iy_e : runs [0xFD, 0x73, 0x02] Pio.none { r0 with e := 0x99, iy := 0xC100 } []
    { r0 with e := 0x99, iy := 0xC100, pc := 0x8003, r := 0x02 } [(0xC102, 0x99)] 19 = true := by decide

/-- V11, `LD (IX+0),H`. -/
theorem test_ld_ix_real_h : runs [0xDD, 0x74, 0x00] Pio.none { r0 with h := 0x44, l := 0x55, ix := 0xC200 } []
    { r0 with h := 0x44, l := 0x55, ix := 0xC200, pc := 0x8003, r := 0x02 } [(0xC200, 0x44)] 19 = true := by decide

/-- V14, `LD (IX-128),0x01`. -/
theorem test_ld_ix_minus_128 : runs [0xDD, 0x36, 0x80, 0x01] Pio.none { r0 with ix := 0xC080 } []
    { r0 with ix := 0xC080, pc := 0x8004, r := 0x02 } [(0xC000, 0x01)] 19 = true := by decide

/-- V20, `LD (0xC200),A`. -/
theorem test_ld_nn_a : runs [0x32, 0x00, 0xC2] Pio.none { r0 with a := 0x33 } []
    { r0 with a := 0x33, pc := 0x8003, r := 0x01 } [(0xC200, 0x33)] 13 = true := by decide

/-- V22, `LD IXH,IXL`. -/
theorem test_ld_ixh_ixl : runs [0xDD, 0x65] Pio.none { r0 with ix := 0x12AB, h := 0x55, l := 0x66 } []
    { r0 with ix := 0xABAB, h := 0x55, l := 0x66, pc := 0x8002, r := 0x02 } [] 8 = true := by decide

/-- V24, `LD IXL,B`. -/
theorem test_ld_ixl_b : runs [0xDD, 0x68] Pio.none { r0 with b := 0x77, ix := 0x1200 } []
    { r0 with b := 0x77, ix := 0x1277, pc := 0x8002, r := 0x02 } [] 8 = true := by decide

/-- V25, `LD IXH,0x12`. -/
theorem test_ld_ixh_n : runs [0xDD, 0x26, 0x12] Pio.none { r0 with ix := 0x00FF } []
    { r0 with ix := 0x12FF, pc := 0x8003, r := 0x02 } [] 11 = true := by decide

/-- V27, `LD A,I`. -/
theorem test_ld_a_i : runs [0xED, 0x57] Pio.none { r0 with i := 0x80, iff1 := true, iff2 := true, f := 0x01 } []
    { r0 with i := 0x80, iff1 := true, iff2 := true, f := 0x85, a := 0x80, pc := 0x8002, r := 0x02 }
    [] 9 = true := by decide

/-- V29, `LD A,R`. -/
theorem test_ld_a_r : runs [0xED, 0x5F] Pio.none { r0 with r := 0xFF } []
    { r0 with r := 0x81, a := 0x81, f := 0x80, pc := 0x8002 } [] 9 = true := by decide

/-- V31, `LD R,A`. -/
theorem test_ld_r_a : runs [0xED, 0x4F] Pio.none { r0 with a := 0x80 } []
    { r0 with a := 0x80, pc := 0x8002, r := 0x80 } [] 9 = true := by decide

/-- V37, `LD BC,(0xC000)`. -/
theorem test_ld_bc_nn : runs [0xED, 0x4B, 0x00, 0xC0] Pio.none r0 [(0xC000, 0xCD), (0xC001, 0xAB)]
    { r0 with b := 0xAB, c := 0xCD, pc := 0x8004, r := 0x02 } [(0xC000, 0xCD), (0xC001, 0xAB)] 20 = true := by decide

/-- V40, `LD IX,(0xC000)`. -/
theorem test_ld_ix_nn : runs [0xDD, 0x2A, 0x00, 0xC0] Pio.none r0 [(0xC000, 0x78), (0xC001, 0x56)]
    { r0 with ix := 0x5678, pc := 0x8004, r := 0x02 } [(0xC000, 0x78), (0xC001, 0x56)] 20 = true := by decide

/-- V42, `LD (0xC010),DE`. -/
theorem test_ld_nn_de : runs [0xED, 0x53, 0x10, 0xC0] Pio.none { r0 with d := 0x12, e := 0x34 } []
    { r0 with d := 0x12, e := 0x34, pc := 0x8004, r := 0x02 } [(0xC010, 0x34), (0xC011, 0x12)] 20 = true := by decide

/-- V49, `PUSH AF`. -/
theorem test_push_af : runs [0xF5] Pio.none { r0 with a := 0x12, f := 0xFF, sp := 0xD000 } []
    { r0 with a := 0x12, f := 0xFF, sp := 0xCFFE, pc := 0x8001, r := 0x01 }
    [(0xCFFE, 0xFF), (0xCFFF, 0x12)] 11 = true := by decide

/-- V51, `POP AF`. -/
theorem test_pop_af : runs [0xF1] Pio.none { r0 with sp := 0xD000 } [(0xD000, 0xFF), (0xD001, 0x12)]
    { r0 with sp := 0xD002, a := 0x12, f := 0xFF, pc := 0x8001, r := 0x01 }
    [(0xD000, 0xFF), (0xD001, 0x12)] 10 = true := by decide

/-- V56, `EX DE,HL under DD`. -/
theorem test_ex_de_hl_under_dd : runs [0xDD, 0xEB] Pio.none
    { r0 with d := 0x11, e := 0x11, h := 0x22, l := 0x22, ix := 0x3333 } []
    { r0 with d := 0x22, e := 0x22, h := 0x11, l := 0x11, ix := 0x3333, pc := 0x8002, r := 0x02 }
    [] 8 = true := by decide

/-- V57, `EX AF,AF'`. -/
theorem test_ex_af : runs [0x08] Pio.none { r0 with a := 0x12, f := 0xD7, afAlt := 0x3400 } []
    { r0 with a := 0x34, f := 0x00, afAlt := 0x12D7, pc := 0x8001, r := 0x01 } [] 4 = true := by decide

/-- V58, `EXX`. -/
theorem test_exx : runs [0xD9] Pio.none
    { r0 with
      b := 0x01, c := 0x01, d := 0x02, e := 0x02, h := 0x03, l := 0x03, bcAlt := 0x1111, deAlt := 0x2222,
      hlAlt := 0x3333 } []
    { r0 with
      b := 0x11, c := 0x11, d := 0x22, e := 0x22, h := 0x33, l := 0x33, bcAlt := 0x0101, deAlt := 0x0202,
      hlAlt := 0x0303, pc := 0x8001, r := 0x01 }
    [] 4 = true := by decide

/-- V60, `EX (SP),IX`. -/
theorem test_ex_sp_ix : runs [0xDD, 0xE3] Pio.none
    { r0 with ix := 0x3988, sp := 0xD000 } [(0xD000, 0x90), (0xD001, 0x48)]
    { r0 with ix := 0x4890, sp := 0xD000, pc := 0x8002, r := 0x02 }
    [(0xD000, 0x88), (0xD001, 0x39)] 23 = true := by decide

/-- V62, `LDI`. -/
theorem test_ldi : runs [0xED, 0xA0] Pio.none
    { r0 with a := 0x01, f := 0xC1, h := 0xC1, l := 0x00, d := 0xC2, e := 0x00, b := 0x00, c := 0x02 } [(0xC100, 0x04)]
    { r0 with
      a := 0x01, f := 0xC5, h := 0xC1, l := 0x01, d := 0xC2, e := 0x01, b := 0x00, c := 0x01, pc := 0x8002,
      r := 0x02 }
    [(0xC200, 0x04), (0xC100, 0x04)] 16 = true := by decide

/-- V63, `LDD`. -/
theorem test_ldd_wraps : runs [0xED, 0xA8] Pio.none
    { r0 with h := 0xC1, l := 0x00, d := 0xC2, e := 0x00, b := 0x00, c := 0x00 } [(0xC100, 0x08)]
    { r0 with h := 0xC0, l := 0xFF, d := 0xC1, e := 0xFF, b := 0xFF, c := 0xFF, f := 0x0C, pc := 0x8002, r := 0x02 }
    [(0xC200, 0x08), (0xC100, 0x08)] 16 = true := by decide

/-- V65, `LDIR (1 step of 65536)`. -/
theorem test_ldir_repeats : runs [0xED, 0xB0] Pio.none
    { r0 with h := 0xC1, l := 0x00, d := 0xC2, e := 0x00, b := 0x00, c := 0x00 } [(0xC100, 0x07)]
    { r0 with h := 0xC1, l := 0x01, d := 0xC2, e := 0x01, b := 0xFF, c := 0xFF, f := 0x24, pc := 0x8000, r := 0x02 }
    [(0xC200, 0x07), (0xC100, 0x07)] 21 = true := by decide

/-- V68, `CPI`. -/
theorem test_cpi_half : runs [0xED, 0xA1] Pio.none
    { r0 with a := 0x10, h := 0xC1, l := 0x00, b := 0x00, c := 0x05 } [(0xC100, 0x01)]
    { r0 with a := 0x10, h := 0xC1, l := 0x01, b := 0x00, c := 0x04, f := 0x3E, pc := 0x8002, r := 0x02 }
    [(0xC100, 0x01)] 16 = true := by decide

/-- V69, `CPD`. -/
theorem test_cpd : runs [0xED, 0xA9] Pio.none
    { r0 with a := 0x00, h := 0xC1, l := 0x00, b := 0x00, c := 0x02 } [(0xC100, 0x01)]
    { r0 with a := 0x00, h := 0xC0, l := 0xFF, b := 0x00, c := 0x01, f := 0xBE, pc := 0x8002, r := 0x02 }
    [(0xC100, 0x01)] 16 = true := by decide

/-- V73, `ADD A,A`. -/
theorem test_add_a_a : runs [0x87] Pio.none { r0 with a := 0x80 } []
    { r0 with a := 0x00, f := 0x45, pc := 0x8001, r := 0x01 } [] 4 = true := by decide

/-- V75, `ADC A,(IX+2)`. -/
theorem test_adc_ix : runs [0xDD, 0x8E, 0x02] Pio.none { r0 with a := 0x0F, f := 0x01, ix := 0xC010 } [(0xC012, 0x00)]
    { r0 with a := 0x10, f := 0x10, ix := 0xC010, pc := 0x8003, r := 0x02 } [(0xC012, 0x00)] 19 = true := by decide

/-- V76, `SUB (IY-1)`. -/
theorem test_sub_iy : runs [0xFD, 0x96, 0xFF] Pio.none { r0 with a := 0x10, iy := 0xC011 } [(0xC010, 0x20)]
    { r0 with a := 0xF0, iy := 0xC011, f := 0xA3, pc := 0x8003, r := 0x02 } [(0xC010, 0x20)] 19 = true := by decide

/-- V77, `ADD A,IXL`. -/
theorem test_add_ixl : runs [0xDD, 0x85] Pio.none { r0 with a := 0x01, ix := 0x12FF, l := 0x55 } []
    { r0 with a := 0x00, ix := 0x12FF, l := 0x55, f := 0x51, pc := 0x8002, r := 0x02 } [] 8 = true := by decide

/-- V78, `CP IYH`. -/
theorem test_cp_iyh : runs [0xFD, 0xBC] Pio.none { r0 with a := 0x28, iy := 0x2800 } []
    { r0 with a := 0x28, iy := 0x2800, f := 0x6A, pc := 0x8002, r := 0x02 } [] 8 = true := by decide

/-- V79, `AND B`. -/
theorem test_and_b : runs [0xA0] Pio.none { r0 with a := 0xFF, b := 0x28, f := 0x01 } []
    { r0 with a := 0x28, b := 0x28, f := 0x3C, pc := 0x8001, r := 0x01 } [] 4 = true := by decide

/-- V81, `OR (HL)`. -/
theorem test_or_hl : runs [0xB6] Pio.none { r0 with a := 0x01, h := 0xC0, l := 0x10 } [(0xC010, 0x80)]
    { r0 with a := 0x81, h := 0xC0, l := 0x10, f := 0x84, pc := 0x8001, r := 0x01 }
    [(0xC010, 0x80)] 7 = true := by decide

/-- V83, `INC B`. -/
theorem test_inc_b : runs [0x04] Pio.none { r0 with b := 0xFF, f := 0x01 } []
    { r0 with b := 0x00, f := 0x51, pc := 0x8001, r := 0x01 } [] 4 = true := by decide

/-- V86, `INC (HL)`. -/
theorem test_inc_hl : runs [0x34] Pio.none { r0 with h := 0xC0, l := 0x10 } [(0xC010, 0xFF)]
    { r0 with h := 0xC0, l := 0x10, f := 0x50, pc := 0x8001, r := 0x01 } [(0xC010, 0x00)] 11 = true := by decide

/-- V94, `DEC (IY-2)`. -/
theorem test_dec_iy : runs [0xFD, 0x35, 0xFE] Pio.none { r0 with iy := 0xC012 } [(0xC010, 0x00)]
    { r0 with iy := 0xC012, f := 0xBA, pc := 0x8003, r := 0x02 } [(0xC010, 0xFF)] 23 = true := by decide

/-- V95, `INC IXH`. -/
theorem test_inc_ixh : runs [0xDD, 0x24] Pio.none { r0 with ix := 0x7F00, h := 0x11 } []
    { r0 with ix := 0x8000, h := 0x11, f := 0x94, pc := 0x8002, r := 0x02 } [] 8 = true := by decide

/-- V97, `CPL`. -/
theorem test_cpl : runs [0x2F] Pio.none { r0 with a := 0xB4, f := 0xC5 } []
    { r0 with a := 0x4B, f := 0xDF, pc := 0x8001, r := 0x01 } [] 4 = true := by decide

/-- V99, `NEG`. -/
theorem test_neg_overflow : runs [0xED, 0x44] Pio.none { r0 with a := 0x80 } []
    { r0 with a := 0x80, f := 0x87, pc := 0x8002, r := 0x02 } [] 8 = true := by decide

/-- V104, `CCF`. -/
theorem test_ccf : runs [0x3F] Pio.none { r0 with a := 0x00, f := 0xC6 } []
    { r0 with a := 0x00, f := 0xC5, pc := 0x8001, r := 0x01 } [] 4 = true := by decide

/-- V105, `SCF`. -/
theorem test_scf : runs [0x37] Pio.none { r0 with a := 0x08, f := 0xD6 } []
    { r0 with a := 0x08, f := 0xCD, pc := 0x8001, r := 0x01 } [] 4 = true := by decide

/-- V109, `DI`. -/
theorem test_di : runs [0xF3] Pio.none { r0 with iff1 := true, iff2 := true } []
    { r0 with iff1 := false, iff2 := false, pc := 0x8001, r := 0x01 } [] 4 = true := by decide

/-- V112, `IM 2`. -/
theorem test_im_2 : runs [0xED, 0x5E] Pio.none r0 []
    { r0 with im := .im2, pc := 0x8002, r := 0x02 } [] 8 = true := by decide

/-- V118, `RETN (copy)`. -/
theorem test_retn_copy : runs [0xED, 0x7D] Pio.none { r0 with sp := 0xD000 } [(0xD000, 0x34), (0xD001, 0x12)]
    { r0 with sp := 0xD002, pc := 0x1234, r := 0x02 } [(0xD000, 0x34), (0xD001, 0x12)] 14 = true := by decide

/-- V119, `NOP under FD FD DD`. -/
theorem test_nop_under_prefixes : runs [0xFD, 0xFD, 0xDD, 0x00] Pio.none r0 []
    { r0 with pc := 0x8004, r := 0x04 } [] 16 = true := by decide

/-- V120, `LD BC,(nn) under DD`. -/
theorem test_ld_bc_nn_under_dd : runs [0xDD, 0xED, 0x4B, 0x00, 0xC0] Pio.none r0 [(0xC000, 0x01), (0xC001, 0x02)]
    { r0 with b := 0x02, c := 0x01, pc := 0x8005, r := 0x03 } [(0xC000, 0x01), (0xC001, 0x02)] 24 = true := by decide

/-- V121, `ADD HL,BC`. -/
theorem test_add_hl_bc : runs [0x09] Pio.none { r0 with h := 0x0F, l := 0xFF, b := 0x00, c := 0x01, f := 0xC4 } []
    { r0 with h := 0x10, l := 0x00, b := 0x00, c := 0x01, f := 0xD4, pc := 0x8001, r := 0x01 }
    [] 11 = true := by decide

/-- V124, `ADD HL,SP`. -/
theorem test_add_hl_sp : runs [0x39] Pio.none { r0 with h := 0x12, l := 0x34, sp := 0x2800 } []
    { r0 with h := 0x3A, l := 0x34, sp := 0x2800, f := 0x28, pc := 0x8001, r := 0x01 } [] 11 = true := by decide

/-- V125, `ADD IX,IX`. -/
theorem test_add_ix_ix : runs [0xDD, 0x29] Pio.none { r0 with ix := 0x4000, h := 0x11, l := 0x11 } []
    { r0 with ix := 0x8000, h := 0x11, l := 0x11, pc := 0x8002, r := 0x02 } [] 15 = true := by decide

/-- V127, `ADC HL,BC`. -/
theorem test_adc_hl : runs [0xED, 0x4A] Pio.none { r0 with h := 0x7F, l := 0xFF, b := 0x00, c := 0x00, f := 0x01 } []
    { r0 with h := 0x80, l := 0x00, b := 0x00, c := 0x00, f := 0x94, pc := 0x8002, r := 0x02 }
    [] 15 = true := by decide

/-- V131, `SBC HL,BC`. -/
theorem test_sbc_hl_overflow : runs [0xED, 0x42] Pio.none { r0 with h := 0x80, l := 0x00, b := 0x00, c := 0x01 } []
    { r0 with h := 0x7F, l := 0xFF, b := 0x00, c := 0x01, f := 0x3E, pc := 0x8002, r := 0x02 }
    [] 15 = true := by decide

/-- V134, `INC BC`. -/
theorem test_inc_bc : runs [0x03] Pio.none { r0 with b := 0xFF, c := 0xFF, f := 0xFF } []
    { r0 with b := 0x00, c := 0x00, f := 0xFF, pc := 0x8001, r := 0x01 } [] 6 = true := by decide

/-- V139, `RLCA`. -/
theorem test_rlca : runs [0x07] Pio.none { r0 with a := 0x81, f := 0xC4 } []
    { r0 with a := 0x03, f := 0xC5, pc := 0x8001, r := 0x01 } [] 4 = true := by decide

/-- V144, `RRA`. -/
theorem test_rra : runs [0x1F] Pio.none { r0 with a := 0x50, f := 0x01 } []
    { r0 with a := 0xA8, f := 0x28, pc := 0x8001, r := 0x01 } [] 4 = true := by decide

/-- V147, `RL D`. -/
theorem test_rl_d : runs [0xCB, 0x12] Pio.none { r0 with d := 0x8F } []
    { r0 with d := 0x1E, f := 0x0D, pc := 0x8002, r := 0x02 } [] 8 = true := by decide

/-- V148, `RR (HL)`. -/
theorem test_rr_hl : runs [0xCB, 0x1E] Pio.none { r0 with h := 0xC0, l := 0x10 } [(0xC010, 0xDD)]
    { r0 with h := 0xC0, l := 0x10, f := 0x29, pc := 0x8002, r := 0x02 } [(0xC010, 0x6E)] 15 = true := by decide

/-- V150, `SRA (IX+3)`. -/
theorem test_sra_ix : runs [0xDD, 0xCB, 0x03, 0x2E] Pio.none { r0 with ix := 0xC010 } [(0xC013, 0xB8)]
    { r0 with ix := 0xC010, f := 0x88, pc := 0x8004, r := 0x02 } [(0xC013, 0xDC)] 23 = true := by decide

/-- V152, `SLL A`. -/
theorem test_sll_a : runs [0xCB, 0x37] Pio.none { r0 with a := 0x80 } []
    { r0 with a := 0x01, f := 0x01, pc := 0x8002, r := 0x02 } [] 8 = true := by decide

/-- V154, `RL (IY-1),H`. -/
theorem test_rl_iy_h : runs [0xFD, 0xCB, 0xFF, 0x14] Pio.none { r0 with iy := 0xC011, f := 0x01 } [(0xC010, 0x40)]
    { r0 with iy := 0xC011, f := 0x84, h := 0x81, pc := 0x8004, r := 0x02 } [(0xC010, 0x81)] 23 = true := by decide

/-- V155, `RLD`. -/
theorem test_rld : runs [0xED, 0x6F] Pio.none { r0 with a := 0x7A, h := 0xC0, l := 0x10, f := 0x01 } [(0xC010, 0x31)]
    { r0 with a := 0x73, h := 0xC0, l := 0x10, f := 0x21, pc := 0x8002, r := 0x02 }
    [(0xC010, 0x1A)] 18 = true := by decide

/-- V156, `RRD`. -/
theorem test_rrd : runs [0xED, 0x67] Pio.none { r0 with a := 0x84, h := 0xC0, l := 0x10 } [(0xC010, 0x20)]
    { r0 with a := 0x80, h := 0xC0, l := 0x10, f := 0x80, pc := 0x8002, r := 0x02 }
    [(0xC010, 0x42)] 18 = true := by decide

/-- V158, `BIT 7,A`. -/
theorem test_bit_7_a : runs [0xCB, 0x7F] Pio.none { r0 with a := 0x00, f := 0x01 } []
    { r0 with a := 0x00, f := 0x55, pc := 0x8002, r := 0x02 } [] 8 = true := by decide

/-- V163, `BIT 6,(IY+0x14)`. -/
theorem test_bit_6_iy : runs [0xFD, 0xCB, 0x14, 0x76] Pio.none { r0 with iy := 0xE8F0 } [(0xE904, 0x40)]
    { r0 with iy := 0xE8F0, f := 0x38, pc := 0x8004, r := 0x02 } [(0xE904, 0x40)] 20 = true := by decide

/-- V164, `BIT 0,(IX+0)`. -/
theorem test_bit_copy : runs [0xDD, 0xCB, 0x00, 0x47] Pio.none { r0 with ix := 0xC010, a := 0x55 } []
    { r0 with ix := 0xC010, a := 0x55, f := 0x54, pc := 0x8004, r := 0x02 } [] 20 = true := by decide

/-- V168, `SET 1,(IX+0),C`. -/
theorem test_set_ix_c : runs [0xDD, 0xCB, 0x00, 0xC9] Pio.none { r0 with ix := 0xC010 } [(0xC010, 0x10)]
    { r0 with ix := 0xC010, c := 0x12, pc := 0x8004, r := 0x02 } [(0xC010, 0x12)] 23 = true := by decide

/-- V172, `RES 0,(IX+1),B`. -/
theorem test_res_ix_b : runs [0xDD, 0xCB, 0x01, 0x80] Pio.none { r0 with ix := 0xC010, b := 0x99 } [(0xC011, 0x03)]
    { r0 with ix := 0xC010, b := 0x02, pc := 0x8004, r := 0x02 } [(0xC011, 0x02)] 23 = true := by decide

/-- V174, `JP NZ,0x9000`. -/
theorem test_jp_nz : runs [0xC2, 0x00, 0x90] Pio.none { r0 with f := 0x00 } []
    { r0 with f := 0x00, pc := 0x9000, r := 0x01 } [] 10 = true := by decide

/-- V177, `JP M,0x9000`. -/
theorem test_jp_m_not : runs [0xFA, 0x00, 0x90] Pio.none { r0 with f := 0x00 } []
    { r0 with f := 0x00, pc := 0x8003, r := 0x01 } [] 10 = true := by decide

/-- V180, `JR 0x7F82`. -/
theorem test_jr_back : runs [0x18, 0x80] Pio.none r0 []
    { r0 with pc := 0x7F82, r := 0x01 } [] 12 = true := by decide

/-- V182, `JR C,0x8012`. -/
theorem test_jr_c_not : runs [0x38, 0x10] Pio.none { r0 with f := 0x00 } []
    { r0 with f := 0x00, pc := 0x8002, r := 0x01 } [] 7 = true := by decide

/-- V188, `DJNZ 0x8000`. -/
theorem test_djnz_wraps : runs [0x10, 0xFE] Pio.none { r0 with b := 0x00 } []
    { r0 with b := 0xFF, pc := 0x8000, r := 0x01 } [] 13 = true := by decide

/-- V190, `JP (IX)`. -/
theorem test_jp_ix : runs [0xDD, 0xE9] Pio.none { r0 with ix := 0x9100, h := 0x90, l := 0x00 } []
    { r0 with ix := 0x9100, h := 0x90, l := 0x00, pc := 0x9100, r := 0x02 } [] 8 = true := by decide

/-- V191, `CALL 0x9000`. -/
theorem test_call : runs [0xCD, 0x00, 0x90] Pio.none { r0 with sp := 0xFFF0 } []
    { r0 with sp := 0xFFEE, pc := 0x9000, r := 0x01 } [(0xFFEE, 0x03), (0xFFEF, 0x80)] 17 = true := by decide

/-- V192, `CALL Z,0x9000`. -/
theorem test_call_z_not : runs [0xCC, 0x00, 0x90] Pio.none { r0 with sp := 0xFFF0, f := 0x00 } []
    { r0 with sp := 0xFFF0, f := 0x00, pc := 0x8003, r := 0x01 } [] 10 = true := by decide

/-- V195, `RET NZ`. -/
theorem test_ret_nz : runs [0xC0] Pio.none { r0 with sp := 0xD000 } [(0xD000, 0x34), (0xD001, 0x12)]
    { r0 with sp := 0xD002, pc := 0x1234, r := 0x01 } [(0xD000, 0x34), (0xD001, 0x12)] 11 = true := by decide

/-- V196, `RET NZ`. -/
theorem test_ret_nz_not : runs [0xC0] Pio.none { r0 with sp := 0xD000, f := 0x40 } []
    { r0 with sp := 0xD000, f := 0x40, pc := 0x8001, r := 0x01 } [] 5 = true := by decide

/-- V198, `RETN`. -/
theorem test_retn : runs [0xED, 0x45] Pio.none
    { r0 with sp := 0xD000, iff1 := true, iff2 := true } [(0xD000, 0x34), (0xD001, 0x12)]
    { r0 with sp := 0xD002, iff1 := true, iff2 := true, pc := 0x1234, r := 0x02 }
    [(0xD000, 0x34), (0xD001, 0x12)] 14 = true := by decide

/-- V199, `RST 0x28`. -/
theorem test_rst_28 : runs [0xEF] Pio.none { r0 with sp := 0xD000 } []
    { r0 with sp := 0xCFFE, pc := 0x0028, r := 0x01 } [(0xCFFE, 0x01), (0xCFFF, 0x80)] 11 = true := by decide

/-- V201, `OUT (0x10),A`. -/
theorem test_out_latch : runs [0xD3, 0x10] (latchAt10 0) { r0 with a := 0x5A } []
    { r0 with a := 0x5A, pc := 0x8002, r := 0x01 } [] 11 = true := by decide

/-- V204, `IN A,(0x20)`. -/
theorem test_in_empty : runs [0xDB, 0x20] (latchAt10 128) r0 []
    { r0 with a := 0xFF, pc := 0x8002, r := 0x01 } [] 11 = true := by decide

/-- V205, `IN B,(C)`. -/
theorem test_in_b_c : runs [0xED, 0x40] (latchAt10 0) { r0 with c := 0x10, b := 0x77, f := 0x01 } []
    { r0 with c := 0x10, b := 0x00, f := 0x45, pc := 0x8002, r := 0x02 } [] 12 = true := by decide

/-- V210, `OUT (C),0`. -/
theorem test_out_c_0 : runs [0xED, 0x71] (latchAt10 85) { r0 with c := 0x10 } []
    { r0 with c := 0x10, pc := 0x8002, r := 0x02 } [] 12 = true := by decide

/-- V220, `NOP; IM 1 delivery`. -/
theorem test_im1_delivery : runs [0x00] (irqAt30 0xFF) { r0 with iff1 := true, iff2 := true } []
    { r0 with iff1 := false, iff2 := false, sp := 0xFFFE, pc := 0x0038, r := 0x02 }
    [(0xFFFE, 0x01), (0xFFFF, 0x80)] 17 = true := by decide

/-- V222, `EI; not delivered`. -/
theorem test_ei_shadow : runs [0xFB] (irqAt30 0xFF) r0 []
    { r0 with iff1 := true, iff2 := true, pc := 0x8001, r := 0x01 } [] 4 = true := by decide

/-- V225, `HALT; woken in the same step`. -/
theorem test_halt_woken : runs [0x76] (irqAt30 0xFF) { r0 with iff1 := true, iff2 := true } []
    { r0 with iff1 := false, iff2 := false, sp := 0xFFFE, pc := 0x0038, r := 0x02 }
    [(0xFFFE, 0x01), (0xFFFF, 0x80)] 17 = true := by decide

/-- V227, `NOP; IM 2`. -/
theorem test_im2_delivery : runs [0x00] (irqAt30 0x10)
    { r0 with iff1 := true, iff2 := true, im := .im2, i := 0xC1 } [(0xC110, 0x00), (0xC111, 0xC2)]
    { r0 with iff1 := false, iff2 := false, im := .im2, i := 0xC1, sp := 0xFFFE, pc := 0xC200, r := 0x02 }
    [(0xFFFE, 0x01), (0xFFFF, 0x80), (0xC110, 0x00), (0xC111, 0xC2)] 23 = true := by decide

/-- V229, `NOP; IM 0, bus 0xFF`. -/
theorem test_im0_rst : runs [0x00] (irqAt30 0xFF) { r0 with iff1 := true, iff2 := true, im := .im0 } []
    { r0 with iff1 := false, iff2 := false, im := .im0, sp := 0xFFFE, pc := 0x0038, r := 0x02 }
    [(0xFFFE, 0x01), (0xFFFF, 0x80)] 17 = true := by decide

/-- V231, `NOP; IM 0, bus 0xCD`. -/
theorem test_im0_call : runs [0x00, 0x00, 0x90] (irqAt30 0xCD)
    { r0 with iff1 := true, iff2 := true, im := .im0, sp := 0xD000 } []
    { r0 with iff1 := false, iff2 := false, im := .im0, sp := 0xCFFE, pc := 0x9000, r := 0x02 }
    [(0xCFFE, 0x03), (0xCFFF, 0x80)] 23 = true := by decide

/-- V232, `LD A,I; delivery`. -/
theorem test_ld_a_i_quirk : runs [0xED, 0x57] (irqAt30 0xFF) { r0 with iff1 := true, iff2 := true, i := 0x01 } []
    { r0 with iff1 := false, iff2 := false, i := 0x01, a := 0x01, sp := 0xFFFE, pc := 0x0038, r := 0x03 }
    [(0xFFFE, 0x02), (0xFFFF, 0x80)] 22 = true := by decide

/-- V233, `LDIR, interrupted`. -/
theorem test_ldir_interrupted : runs [0xED, 0xB0] (irqAt30 0xFF)
    { r0 with iff1 := true, iff2 := true, h := 0xC1, l := 0x00, d := 0xC2, e := 0x00, b := 0x00, c := 0x02 } [(0xC100, 0x09)]
    { r0 with
      iff1 := false, iff2 := false, h := 0xC1, l := 0x01, d := 0xC2, e := 0x01, b := 0x00, c := 0x01,
      sp := 0xFFFE, f := 0x0C, pc := 0x0038, r := 0x03 }
    [(0xC200, 0x09), (0xFFFF, 0x80), (0xC100, 0x09)] 34 = true := by decide

/-- V161, `BIT 0,(HL)`: X and Y are free, whatever they are. -/
theorem test_bit_0_hl :
    (match step (start [0xCB, 0x46] Pio.none { r0 with h := 0xC0, l := 0x10 } [(0xC010, 0x01)]) with
      | .next t => { t.regs with f := 0 } == { r0 with h := 0xC0, l := 0x10, pc := 0x8002, r := 2 } && t.timer.tstates == 12
      | _ => false) = true ∧
    ∀ y x, (bitFlags 0 0x01 y x (Flags.ofByte 0)).byte &&& 0xD7 = 0x10 := by decide

/-- The rows of 95_test_vectors 2.5 for `DAA` with N = 0: A and F before, A and F after. -/
theorem test_daa_after_addition :
    (([(0x3C, 0x00, 0x42, 0x14), (0x9A, 0x00, 0x00, 0x55), (0x99, 0x00, 0x99, 0x8C), (0x0A, 0x00, 0x10, 0x10),
        (0x10, 0x10, 0x16, 0x00), (0xA0, 0x00, 0x00, 0x45), (0x00, 0x01, 0x60, 0x25), (0x9F, 0x00, 0x05, 0x15),
        (0xFF, 0x11, 0x65, 0x35)] :
        List (Byte × Byte × Byte × Byte)).all fun r =>
      match exec .daa { h0 with regs := { r0 with a := r.1, f := r.2.1 } } with
      | .next t => t.regs == { r0 with a := r.2.2.1, f := r.2.2.2 } && t.timer.tstates == 4
      | _ => false) = true := by decide

/-- The rows of 95_test_vectors 2.5 for `DAA` with N = 1. -/
theorem test_daa_after_subtraction :
    (([(0x0F, 0x12, 0x09, 0x0E), (0xFF, 0x13, 0x99, 0x8F), (0x42, 0x02, 0x42, 0x06), (0xA5, 0x03, 0x45, 0x03),
        (0x06, 0x12, 0x00, 0x46), (0x05, 0x12, 0xFF, 0xBE)] :
        List (Byte × Byte × Byte × Byte)).all fun r =>
      match exec .daa { h0 with regs := { r0 with a := r.1, f := r.2.1 } } with
      | .next t => t.regs == { r0 with a := r.2.2.1, f := r.2.2.2 } && t.timer.tstates == 4
      | _ => false) = true := by decide

/-- The bound of 70_reset R632 counts the bytes routed: two for one prefix byte and the NOP after it. -/
theorem test_prefix_bound :
    (match routeFrom 2 0 0xDD { h0 with ctl := { h0.ctl with pfx := .none } } with
      | .ok r _ => r == (.nop, 1)
      | _ => false) = true ∧
    (match routeFrom 1 0 0xDD { h0 with ctl := { h0.ctl with pfx := .none } } with
      | .refused .prefixRunTooLong => true
      | _ => false) = true := by decide

/-- An entry registered, a device cleared, an image loaded (70_reset R645; 60_exceptions R550). -/
theorem test_host :
    (match hostDo (.addEntry 0x30 3) State.reset with
      | .next t => t.pio.intEntries == [⟨0x30, 3, 3⟩]
      | _ => false) = true ∧
    (match hostDo (.clearDevice 0x10) { h0 with pio := latchAt10 0x3C } with
      | .next t => t.pio.devices.map (·.own) == [0]
      | _ => false) = true ∧
    (match hostDo (.load false 0x7FFFE [0x12, 0x34]) State.reset with
      | .next t => t.mem.flash == [(0x7FFFE, 0x12), (0x7FFFF, 0x34)]
      | _ => false) = true := by decide

/-- V212, `INI`: only Z is defined. -/
theorem test_ini :
    (match step (start [0xED, 0xA2] (latchAt10 0x3C) { r0 with b := 0x01, c := 0x10, h := 0xC0, l := 0x10 } []) with
      | .next t => t.regs.b == 0 && t.regs.hl == 0xC011 && byteAt t 0xC010 == 0x3C && t.pio.ioCache == 0x3C &&
          t.timer.tstates == 16
      | _ => false) = true := by decide

/-- V215, `INDR`: repeats. -/
theorem test_indr :
    (match step (start [0xED, 0xBA] (latchAt10 0x3C) { r0 with b := 0x02, c := 0x10, h := 0xC0, l := 0x10 } []) with
      | .next t => t.regs.b == 1 && t.regs.hl == 0xC00F && t.regs.pc == 0x8000 && t.timer.tstates == 21
      | _ => false) = true := by decide

/-- V216, `OUTI`: the device takes the byte. -/
theorem test_outi :
    (match step (start [0xED, 0xA3] (latchAt10 0) { r0 with b := 0x01, c := 0x10, h := 0xC0, l := 0x10 } [(0xC010, 0xAB)]) with
      | .next t => t.regs.b == 0 && t.regs.hl == 0xC011 && t.pio.devices.map (·.own) == [0xAB]
      | _ => false) = true := by decide

/-- V21, `LD (0x4AAA),A`: the gate rejects the write, and the event is raised. -/
theorem test_store_to_locked_flash :
    (match step (start [0x32, 0xAA, 0x4A] Pio.none { r0 with a := 0xAA } []) with
      | .next t => t.mem.flash == [] && t.log == [.event (.invalidFlash 0x4AAA 0xAA)] && t.regs.pc == 0x8003
      | _ => false) = true := by decide

/-- V107, a halted tick: R and the time move, the program counter stays. -/
theorem test_halted_tick :
    (match step { h0 with ctl := { h0.ctl with halt := true } } with
      | .next t => t.regs == { r0 with r := 1 } && t.timer.tstates == 4 && t.ctl.halt
      | _ => false) = true := by decide

/-! ## Translation (95_test_vectors M1 to M28) -/

/-- The state after reset with a changed normal table. -/
def mapped (slot : Fin 5) (isRam : Bool) (page : Byte) : State :=
  { State.reset with mem := { State.reset.mem with normal := State.reset.mem.normal.setSlot slot (BankSlot.fresh isRam page) } }

/-- With the remap registers set. -/
def windows (n27 n28 : Byte) (s : State) : State := { s with mem := { s.mem with remap27 := n27, remap28 := n28 } }

theorem test_translation_reset :
    resolve State.reset 0x0000 = (false, 0x7C000) ∧ resolve State.reset 0x3FFF = (false, 0x7FFFF) ∧
      resolve State.reset 0x4000 = (false, 0) ∧ resolve State.reset 0x8000 = (false, 0) ∧
      resolve State.reset 0xBFFF = (false, 0x03FFF) ∧ resolve State.reset 0xC000 = (true, 0) ∧
      resolve State.reset 0xFFFF = (true, 0x03FFF) := by decide

theorem test_translation_boot :
    let s := setView .bootMapped (mapped 1 false 5)
    resolve (mapped 1 false 5) 0x4123 = (false, 0x14123) ∧ resolve s 0x0000 = (false, 0x7C000) ∧
      resolve s 0x4123 = (false, 0x10123) ∧ resolve s 0x8123 = (false, 0x14123) ∧
      resolve { s with cfg := { s.cfg with flashVersion := 1 } } 0x8123 = (false, 0x10123) ∧
      resolve s 0xC000 = (false, 0) := by decide

theorem test_translation_window27 :
    let s := mapped 3 false 7
    resolve (windows 1 0 s) 0xFFC0 = (true, 0x03FC0) ∧ resolve (windows 1 0 s) 0xFFBF = (false, 0x1FFBF) ∧
      resolve (windows 18 0 s) 0xFB80 = (true, 0x03B80) ∧ resolve (windows 18 0 s) 0xFB7F = (false, 0x1FB7F) ∧
      resolve (windows 200 0 s) 0xFB7F = (false, 0x1FB7F) ∧
      resolve (setView .bootMapped (windows 200 0 s)) 0xFFFF = (false, 0x03FFF) := by decide

theorem test_translation_window28 :
    let s := windows 0 1 State.reset
    let u := windows 0 255 State.reset
    resolve s 0x8000 = (true, 0x04000) ∧ resolve s 0x803F = (true, 0x0403F) ∧ resolve s 0x8040 = (false, 0x00040) ∧
      resolve u 0xBFBF = (true, 0x07FBF) ∧ resolve u 0xBFC0 = (false, 0x03FC0) ∧
      inStore { State.reset.cfg with ramPages := 1 } true 0x04000 = false := by decide

theorem test_translation_shadow :
    let v2 (s : State) : State := { s with cfg := { s.cfg with ramVersion := 2 } }
    resolve (v2 (mapped 1 true 3)) 0x4010 = (true, 0x08010) ∧ resolve (v2 (mapped 1 true 2)) 0x4010 = (true, 0x08010) ∧
      resolve (mapped 1 true 3) 0x4010 = (true, 0x0C010) := by decide

/-! ## Flash, reset, events -/

/-- The state after reset with the lock off, in a sequencer state. -/
def unlocked (x : FlashState) : State :=
  { State.reset with mem := { State.reset.mem with flashLocked := false, flashState := x } }

/-- The state that a primitive leaves passes the check. -/
def leaves {α : Type} (x : Res α) (ok : State → Bool) : Bool :=
  match x with
  | .ok _ t => ok t
  | _ => false

/-- F1, F14: the unlock writes. -/
theorem test_flash_unlock :
    leaves (writeAll [(0x4AAA, 0xAA), (0x4555, 0x55), (0x4AAA, 0x90)] (unlocked .read))
      (fun t => t.mem.flashState == .autoselect && t.log == []) = true ∧
    leaves (writeAll [(0x4AAA, 0xAA), (0x4555, 0x55), (0x4AAA, 0x20), (0x4000, 0xA0)] (unlocked .read))
      (fun t => t.mem.flashState == .fastmodeProg) = true := by decide

/-- F7, F16, F12: recoveries, and a read between unlock writes. -/
theorem test_flash_recovery :
    leaves (memWrite 0x4AAB 0xAA (unlocked .read)) (fun t => t.mem.flashState == .read && t.log.length == 1) = true ∧
    leaves (memWrite 0x4000 0xF0 (unlocked .fastmode)) (fun t => t.mem.flashState == .read && t.log.length == 1) = true ∧
    leaves (memRead 0x4000 (unlocked .aa)) (fun t => t.mem.flashState == .read && t.log == []) = true := by decide

/-- F2: programming clears bits only, and 1 over 0 sets the error flag. -/
theorem test_flash_program :
    leaves (memWrite 0x4010 0xC3 (poke [(0x4010, 0x3C)] (unlocked .program)))
      (fun t => byteAt t 0x4010 == 0 && t.mem.flashError && t.mem.flashState == .read) = true := by decide

/-- The sector table of 20_memory R127, its five branches. -/
theorem test_sector_table :
    defaultSectorRange 32 3 0x2000 = (0x00000, 0x10000) ∧ defaultSectorRange 32 27 0x3FFF = (0x60000, 0x70000) ∧
      defaultSectorRange 32 29 0x3FFF = (0x70000, 0x78000) ∧ defaultSectorRange 32 30 0x1FFF = (0x78000, 0x7A000) ∧
      defaultSectorRange 32 30 0x2000 = (0x7A000, 0x7C000) ∧ defaultSectorRange 32 31 0x3FFF = (0x7C000, 0x80000) := by
  decide

/-- M-RO: a read-only slot keeps its byte, and the remap window ignores the slot. -/
theorem test_read_only_slot :
    let s := setSlotBits 3 true false State.reset
    leaves (memWrite 0xC000 0x55 s) (fun t => t.mem.ram == [] && t.log == [] && t.ctl.bus == 0x55) = true ∧
      leaves (memWrite 0xFFC0 0x66 (windows 1 0 s)) (fun t => t.mem.ram == [(0x03FC0, 0x66)]) = true := by decide

/-- X3: the first opcode fetch outside bank 0 brings Flash page 0 into bank 0. -/
theorem test_boot_unmap :
    let s : State := { h0 with mem := { h0.mem with bootUnmapDone := false,
                                                    normal := h0.mem.normal.setSlot 0 (BankSlot.fresh false 31) } }
    (match step s with
      | .next t => t.mem.normal.slot0 == BankSlot.fresh false 0 && t.mem.bootUnmapDone && t.regs.pc == 0x8001
      | _ => false) = true := by decide

/-- X4: an execution violation resets the CPU and the fetch goes on at address 0 (`INC A`). -/
theorem test_execution_violation :
    let s := storeSet false 0x7C000 0x3C (setSlotBits 2 false true { h0 with regs := { r0 with a := 0x77, sp := 0x1234 } })
    (match step s with
      | .next t => t.regs == { Regs.reset with a := 1, f := 0, pc := 1, r := 1 } && !t.mem.bootUnmapDone &&
          t.log == [.event (.execViolation 0x8000)] && t.timer.tstates == 4
      | _ => false) = true := by decide

/-- X5: marks on the byte of `INC (HL)` call the read hook and then the write hook. -/
theorem test_break_marks :
    let s := start [0x34] Pio.none { r0 with h := 0xC0, l := 0x10 } []
    (match step { s with mem := { s.mem with marks := [⟨⟨0, 0x10, true⟩, true, true, none⟩] } } with
      | .next t => t.log == [.event (.memWriteBreak ⟨0, 0x10, true⟩), .event (.memReadBreak ⟨0, 0x10, true⟩)]
      | _ => false) = true := by decide

/-- V226: an entry with skip factor 3 fires at the third poll. -/
theorem test_skip_factor :
    let s : State := { h0 with pio := { irqAt30 0xFF with intEntries := [⟨0x30, 3, 3⟩] } }
    leaves (pollTimes 2 s) (fun t => !t.ctl.interrupt && t.pio.intEntries == [⟨0x30, 3, 1⟩]) = true ∧
      leaves (pollTimes 3 s) (fun t => t.ctl.interrupt && t.ctl.bus == 0xFF) = true := by decide

/-- The host's placement: the very next step after reset runs the placed instruction. -/
theorem test_withFetchWord :
    (match step (State.reset.withFetchWord 24 0x12343E) with
      | .next t => t.regs.a == 0x34 && t.regs.pc == 2
      | _ => false) = true := by decide

/-! ## Witnesses: a state and operands that meet the hypotheses of each statement -/

/-- H0 with other registers. -/
def at' (g : Regs) : State := { h0 with regs := g }

/-- The outcome is a next state. -/
def isNext (x : Outcome) : Bool :=
  match x with
  | .next _ => true
  | _ => false

theorem exists_of_isNext {x : Outcome} (h : isNext x = true) : ∃ t, x = .next t := by
  cases x with
  | next t => exact ⟨t, rfl⟩
  | fault f => cases h
  | refused r => cases h

theorem witness_DecodeEncode :
    (WellFormed (.ldMemIxN 0x80 0xFF) = true ∧ (Instr.ldMemIxN 0x80 0xFF).isPrefixByte = false) ∧
      (WellFormed (.im0Copy 5) = true ∧ (Instr.im0Copy 5).isPrefixByte = false) := by decide

theorem witness_EncodeDecode : decode [0xDD, 0xFD, 0x21, 0xFF, 0xFF] = .ok ⟨.ldIyNn 0xFFFF, 2, []⟩ := by decide

theorem witness_EveryStringDecodes :
    (∀ p ∈ ([0xDD, 0xFD] : List Byte), p = 0xDD ∨ p = 0xFD) ∧ (0xCB : Byte) ≠ 0xDD ∧ (0xCB : Byte) ≠ 0xFD := by decide

theorem witness_StepRunsDecodedInstruction :
    decode [0xDD, 0x36, 0x05, 0xAA] = .ok ⟨.ldMemIxN 0x05 0xAA, 1, []⟩ ∧
      fetchable (start [0xDD, 0x36, 0x05, 0xAA] Pio.none r0 []) [0xDD, 0x36, 0x05, 0xAA] := by
  unfold fetchable
  decide

theorem witness_MemoryLoads :
    (let s := at' { r0 with h := 0xFF, l := 0xFF }; readable s s.regs.hl = true) ∧
      (let s := at' { r0 with ix := 0xC07F }; readable s (s.regs.ix + (0x80 : Byte).signExtend 16) = true) ∧
      (let s := at' { r0 with iy := 0xFFF0 }; readable s (s.regs.iy + (0x7F : Byte).signExtend 16) = true) ∧
      (let s := at' { r0 with b := 0x00, c := 0x00 }; readable s s.regs.bc = true) ∧
      (let s := at' { r0 with d := 0x80, e := 0x00 }; readable s s.regs.de = true) ∧
      (readable h0 0xFFFF = true ∧ readable h0 (0xFFFF + 1) = true) := by decide

theorem witness_MemoryStores :
    Consistent h0 = true ∧
      (let s := at' { r0 with h := 0xFF, l := 0xFF }; Consistent s = true ∧ writable s s.regs.hl = true) ∧
      (let s := at' { r0 with ix := 0xC080 }
       Consistent s = true ∧ writable s (s.regs.ix + (0x80 : Byte).signExtend 16) = true) ∧
      (let s := at' { r0 with iy := 0x8000 }
       Consistent s = true ∧ writable s (s.regs.iy + (0x7F : Byte).signExtend 16) = true) ∧
      (let s := at' { r0 with b := 0xC0 }; Consistent s = true ∧ writable s s.regs.bc = true) ∧
      (let s := at' { r0 with d := 0x80 }; Consistent s = true ∧ writable s s.regs.de = true) ∧
      (writable h0 0xBFFF = true ∧ writable h0 (0xBFFF + 1) = true) := by decide

theorem witness_PushAndPop :
    (Consistent h0 = true ∧ writable h0 (h0.regs.sp - 1) = true ∧ writable h0 (h0.regs.sp - 2) = true) ∧
      (let s := at' { r0 with sp := 0xFFFF }
       Consistent s = true ∧ readable s s.regs.sp = true ∧ readable s (s.regs.sp + 1) = true) := by decide

theorem witness_Exchanges :
    let s := at' { r0 with sp := 0xBFFF }
    Consistent s = true ∧ readable s s.regs.sp = true ∧ readable s (s.regs.sp + 1) = true ∧ writable s s.regs.sp = true ∧
      writable s (s.regs.sp + 1) = true := by decide

/-- With the source and the destination one byte, and BC about to be 0 and about to wrap. -/
theorem witness_BlockTransfers :
    (let s := at' { r0 with h := 0xFF, l := 0xFF, d := 0xFF, e := 0xFF, c := 1 }
     Consistent s = true ∧ readable s s.regs.hl = true ∧ writable s s.regs.de = true ∧ s.regs.bc - 1 = 0) ∧
      (let s := at' { r0 with d := 0xC0 }
       Consistent s = true ∧ readable s s.regs.hl = true ∧ writable s s.regs.de = true ∧ s.regs.bc - 1 ≠ 0) := by decide

/-- With a match, with BC about to be 0, and with neither. -/
theorem witness_BlockSearches :
    (let s := at' { r0 with h := 0xC0, c := 2 }; readable s s.regs.hl = true ∧ s.regs.a = byteAt s s.regs.hl) ∧
      (let s := at' { r0 with h := 0xC0, c := 1, a := 1 }; readable s s.regs.hl = true ∧ s.regs.bc - 1 = 0) ∧
      (let s := at' { r0 with h := 0xC0, c := 2, a := 1 }
       readable s s.regs.hl = true ∧ ¬(s.regs.bc - 1 = 0 ∨ s.regs.a = byteAt s s.regs.hl)) := by decide

theorem witness_AccumulatorForms :
    readable h0 h0.regs.hl = true ∧
      (let s := at' { r0 with ix := 0xFFFF }; readable s (s.regs.getXY .ix + (0x01 : Byte).signExtend 16) = true) ∧
      (let s := at' { r0 with iy := 0x0000 }; readable s (s.regs.getXY .iy + (0xFF : Byte).signExtend 16) = true) := by
  decide

/-- The byte at (HL), and the bytes at the indexed addresses, can be read and written. -/
theorem witness_read_modify_write :
    (let s := at' { r0 with h := 0xFF, l := 0xFF }
     Consistent s = true ∧ readable s s.regs.hl = true ∧ writable s s.regs.hl = true) ∧
      (let s := at' { r0 with ix := 0x8080 }
       let a := s.regs.getXY .ix + (0x80 : Byte).signExtend 16
       Consistent s = true ∧ readable s a = true ∧ writable s a = true) ∧
      (let s := at' { r0 with iy := 0xFF80 }
       let a := s.regs.getXY .iy + (0x7F : Byte).signExtend 16
       Consistent s = true ∧ readable s a = true ∧ writable s a = true) := by decide

theorem witness_IncDec8 :
    let s := at' { r0 with h := 0xC0, ix := 0xFFFF, iy := 0xC080 }
    (Consistent s = true ∧ readable s s.regs.hl = true ∧ writable s s.regs.hl = true) ∧
      (readable s (s.regs.ix + (0x00 : Byte).signExtend 16) = true ∧
        writable s (s.regs.ix + (0x00 : Byte).signExtend 16) = true) ∧
      (readable s (s.regs.iy + (0x80 : Byte).signExtend 16) = true ∧
        writable s (s.regs.iy + (0x80 : Byte).signExtend 16) = true) := by decide

theorem witness_DaaAdjustsBcd : (0x99 : Byte).toNat / 16 < 10 ∧ (0x99 : Byte).toNat % 16 < 10 := by decide

theorem witness_RotateForms :
    (let s := at' { r0 with h := 0xFF, l := 0xFF }
     Consistent s = true ∧ readable s s.regs.hl = true ∧ writable s s.regs.hl = true) ∧
      (let s := at' { r0 with ix := 0x8080, iy := 0xFF80 }
       let a := s.regs.getXY .ix + (0x80 : Byte).signExtend 16
       let b := s.regs.getXY .iy + (0x7F : Byte).signExtend 16
       Consistent s = true ∧ readable s a = true ∧ writable s a = true ∧ readable s b = true ∧ writable s b = true) := by
  decide

theorem witness_DigitRotates :
    let s := at' { r0 with h := 0x80 }
    Consistent s = true ∧ readable s s.regs.hl = true ∧ writable s s.regs.hl = true := by decide

theorem witness_BitTests :
    readable h0 h0.regs.hl = true ∧
      (let s := at' { r0 with ix := 0x0080, iy := 0xFF80 }
       readable s (s.regs.ix + (0x80 : Byte).signExtend 16) = true ∧
         readable s (s.regs.iy + (0x7F : Byte).signExtend 16) = true) := by decide

theorem witness_SetAndResetBits :
    let s := at' { r0 with h := 0xC0, ix := 0x8080, iy := 0xFF80 }
    Consistent s = true ∧ readable s s.regs.hl = true ∧ writable s s.regs.hl = true ∧
      (let a := s.regs.ix + (0x80 : Byte).signExtend 16; readable s a = true ∧ writable s a = true) ∧
      (let a := s.regs.iy + (0x7F : Byte).signExtend 16; readable s a = true ∧ writable s a = true) := by decide

/-- Each condition holds for one flag register and fails for another. -/
theorem witness_conditions :
    (∀ cc ∈ [Cond.nz, .nc, .po, .p], condHolds cc 0x00 = true ∧ condHolds cc 0xFF = false) ∧
      (∀ cc ∈ [Cond.z, .c, .pe, .m], condHolds cc 0xFF = true ∧ condHolds cc 0x00 = false) := by decide

theorem witness_CallsAndReturns :
    (Consistent h0 = true ∧ writable h0 (h0.regs.sp - 1) = true ∧ writable h0 (h0.regs.sp - 2) = true ∧
      condHolds .nz h0.regs.f = true ∧ condHolds .z h0.regs.f = false) ∧
      (let s := at' { r0 with sp := 0xFFFF }
       readable s s.regs.sp = true ∧ readable s (s.regs.sp + 1) = true ∧ condHolds .nc s.regs.f = true) := by decide

theorem witness_SilentPorts :
    (h0.ctl.input = false ∧ h0.ctl.output = false ∧ emptyPort h0 0xFF = true ∧ emptyPort h0 h0.regs.c = true) ∧
      (let s : State := { h0 with pio := { Pio.none with devices := [⟨0x10, true, false, true, .latch, 0, 0⟩] } }
       deviceAt s 0x10 = some ⟨0x10, true, false, true, .latch, 0, 0⟩) := by decide

theorem witness_AnsweringPorts :
    let s : State := { at' { r0 with c := 0x10 } with pio := latchAt10 0xFF }
    s.ctl.input = false ∧ s.ctl.output = false ∧ latchAt s 0x10 0xFF = true ∧ latchAt s s.regs.c 0xFF = true := by decide

/-- With B about to be 0 and about to wrap. -/
theorem witness_AnsweringBlockIo :
    ∀ b ∈ [(1 : Byte), 0],
      let s : State := { at' { r0 with b := b, c := 0x10, h := 0xFF, l := 0xFF } with pio := latchAt10 0x3C }
      s.ctl.input = false ∧ s.ctl.output = false ∧ latchAt s s.regs.c 0x3C = true ∧ Consistent s = true ∧
        writable s s.regs.hl = true ∧ readable s s.regs.hl = true := by
  simp only [List.forall_mem_cons, List.not_mem_nil, false_implies, implies_true, and_true]
  decide +kernel

/-- With B about to be 0 and about to wrap. -/
theorem witness_BlockIo :
    (let s := at' { r0 with b := 1, c := 0xFF, h := 0xFF, l := 0xFF }
     s.ctl.input = false ∧ s.ctl.output = false ∧ emptyPort s s.regs.c = true ∧ Consistent s = true ∧
       writable s s.regs.hl = true ∧ readable s s.regs.hl = true) ∧
      (let s := at' { r0 with b := 0, h := 0xC0 }
       s.ctl.input = false ∧ s.ctl.output = false ∧ emptyPort s s.regs.c = true ∧ Consistent s = true ∧
         writable s s.regs.hl = true ∧ readable s s.regs.hl = true) := by decide

theorem witness_ResolutionOrder :
    h0.mem.normal.wf = true ∧ (windows 1 0 (mapped 3 false 7)).mem.normal.wf = true ∧
      (setView .bootMapped (mapped 1 false 5)).mem.normal.wf = true := by decide

theorem witness_BootTable :
    State.reset.mem.view = .normal ∧ (setView .bootMapped State.reset).mem.view = .bootMapped ∧
      (31 : Byte).toNat < State.reset.cfg.flashPages := by decide

/-- RAM page 0 seen through bank 3, read back through bank 1, in either view. -/
theorem witness_RoundTrip :
    let s : State := { h0 with mem := { h0.mem with normal := h0.mem.normal.setSlot 1 (BankSlot.fresh true 0) } }
    Consistent s = true ∧ writable s 0xC000 = true ∧
      leaves (memWrite 0xC000 0x55 s) (fun t =>
        readable (setView .normal t) 0x4000 && resolve (setView .normal t) 0x4000 == resolve s 0xC000 &&
          readable (setView .bootMapped t) 0x4000 && resolve (setView .bootMapped t) 0x4000 == resolve s 0xC000) = true := by
  decide

theorem witness_ReadOnlySlot :
    let s := windows 1 0 (setSlotBits 3 true false h0)
    (inStore s.cfg (resolve s 0xC000).1 (resolve s 0xC000).2 = true ∧ (resolve s 0xC000).1 = true ∧
      (slotOf s 0xC000).readOnly = true ∧ markedFor (·.onWrite) (canonOf (resolve s 0xC000).1 (resolve s 0xC000).2) s = false ∧
      inWindow s 0xC000 = false) ∧
      (inStore s.cfg (resolve s 0xFFC0).1 (resolve s 0xFFC0).2 = true ∧ (resolve s 0xFFC0).1 = true ∧
        (slotOf s 0xFFC0).readOnly = true ∧
        markedFor (·.onWrite) (canonOf (resolve s 0xFFC0).1 (resolve s 0xFFC0).2) s = false ∧
        inWindow s 0xFFC0 = true ∧ s.mem.ram.wf = true) := by decide

theorem witness_FlashGate :
    flashTarget State.reset 0x7FFF = true ∧ flashWriteAllowed State.reset (slotOf State.reset 0x7FFF).page = false ∧
      State.reset.cfg.hooks.invalidFlash = none := by decide

theorem witness_FlashTransitions :
    ∀ x ∈ [FlashState.read, .aa, .s55, .program, .erase, .eraseAa, .erase55, .fastmode, .fastmodeProg, .fastmodeExit,
        .autoselect, .error],
      flashWritable (unlocked x) 0x7AAA = true ∧ (unlocked x).cfg.hooks = Hooks.absent ∧ (unlocked x).mem.marks = [] ∧
        ¬((unlocked x).mem.flashState = .erase55 ∧ (0x10 : Byte) = 0x30) := by decide

theorem witness_ByteProgram :
    ∀ x ∈ [FlashState.program, .fastmodeProg], Consistent (unlocked x) = true ∧ flashWritable (unlocked x) 0x3FFF = true ∧
      ((unlocked x).mem.flashState = .program ∨ (unlocked x).mem.flashState = .fastmodeProg) := by decide

theorem witness_AutoselectSequence :
    ((unlocked .read).mem.flashState = .read ∧ flashWritable (unlocked .read) 0x0AAA = true ∧
      flashWritable (unlocked .read) 0xB555 = true ∧ flashWritable (unlocked .read) 0x7AAA = true ∧
      (0x0AAA : Word).toNat % 4096 = 0xAAA ∧ (0xB555 : Word).toNat % 4096 = 0x555 ∧ (0x7AAA : Word).toNat % 4096 = 0xAAA) ∧
      (let s := unlocked .autoselect
       s.mem.flashState = .autoselect ∧ (0x8000 : Word).toNat % 16384 = 0 ∧ inWindow s 0x8000 = false ∧
         (slotOf s 0x8000).isRam = false ∧ inStore s.cfg (resolve s 0x8000).1 (resolve s 0x8000).2 = true ∧
         markedFor (·.onRead) (canonOf (resolve s 0x8000).1 (resolve s 0x8000).2) s = false) := by decide +kernel

/-- A state of the sequencer but AUTOSELECT, and AUTOSELECT at each of the offsets and on both sides of them. -/
theorem witness_FlashReads :
    ∀ x ∈ [(FlashState.read, (0x4000 : Word)), (.aa, 0x4AAA), (.fastmodeProg, 0x7FFF), (.autoselect, 0x4000),
        (.autoselect, 0x4001), (.autoselect, 0x8002), (.autoselect, 0x4003), (.autoselect, 0xBFFF), (.autoselect, 0x0004)],
      let s := unlocked x.1
      inWindow s x.2 = false ∧ (slotOf s x.2).isRam = false ∧ inStore s.cfg (resolve s x.2).1 (resolve s x.2).2 = true ∧
        markedFor (·.onRead) (canonOf (resolve s x.2).1 (resolve s x.2).2) s = false ∧
        s.cfg.hooks.invalidFlash = none := by
  simp only [List.forall_mem_cons, List.not_mem_nil, false_implies, implies_true, and_true]
  decide +kernel

theorem witness_ChipErase :
    (unlocked .read).mem.flashState = .read ∧ (unlocked .read).mem.marks = [] ∧
      (∀ a ∈ [(0x4AAA : Word), 0x4555, 0x4AAA, 0x4AAA, 0x4555, 0x1234], flashWritable (unlocked .read) a = true) ∧
      (∀ a ∈ [(0x4AAA : Word), 0x4AAA, 0x4AAA], a.toNat % 4096 = 0xAAA) ∧
      (∀ a ∈ [(0x4555 : Word), 0x4555], a.toNat % 4096 = 0x555) := by
  simp only [List.forall_mem_cons, List.not_mem_nil, false_implies, implies_true, and_true]
  decide +kernel

/-- A page in bank 1, about to be erased. -/
def erasing (page : Byte) : State :=
  let s := mapped 1 false page
  { s with mem := { s.mem with flashLocked := false, flashState := .erase55 } }

/-- A page in each branch of the sector table, at its ends. -/
theorem witness_SectorErase :
    ∀ x ∈ [((0 : Byte), (0x4000 : Word)), (27, 0x7FFF), (28, 0x4000), (29, 0x7FFF), (30, 0x4000), (30, 0x5FFF),
        (30, 0x6000), (31, 0x4000), (31, 0x7FFF)],
      flashWritable (erasing x.1) x.2 = true ∧ (erasing x.1).mem.normal.wf = true ∧
        (erasing x.1).mem.flashState = .erase55 ∧ (erasing x.1).cfg.sectorRange = .default ∧
        4 ≤ (erasing x.1).cfg.flashPages ∧ (slotOf (erasing x.1) x.2).page.toNat < (erasing x.1).cfg.flashPages := by
  simp only [List.forall_mem_cons, List.not_mem_nil, false_implies, implies_true, and_true]
  decide +kernel

/-- The state after reset at a program counter, with the unmap done or not. -/
def fetchingAt (pc : Word) (unmapped : Bool) : State :=
  { State.reset with
    regs := { Regs.reset with pc := pc }
    mem := { State.reset.mem with bootUnmapDone := unmapped } }

/-- Below and above the boundary of bank 0, with the unmap due and done. -/
theorem witness_BootUnmap :
    ∀ x ∈ [((0x3FFF : Word), false), (0x4000, false), (0xFFFF, false), (0x4000, true)],
      (fetchingAt x.1 x.2).cfg.modelClass = .flashEra ∧ 0 < (fetchingAt x.1 x.2).cfg.flashPages ∧
        (slotOf (fetchingAt x.1 x.2) x.1).noExec = false ∧ (fetchingAt x.1 x.2).cfg.execRule = .default ∧
        readable (fetchingAt x.1 x.2) (fetchingAt x.1 x.2).regs.pc = true := by
  simp only [List.forall_mem_cons, List.not_mem_nil, false_implies, implies_true, and_true]
  decide +kernel

theorem witness_ExecutionViolation :
    let s := setSlotBits 2 false true h0
    (slotOf s s.regs.pc).noExec = true ∧ s.cfg.modelClass = .flashEra ∧ s.cfg.hooks.execViolation = none ∧
      s.mem.marks = [] ∧ 0 < s.cfg.flashPages ∧ s.cfg.flashPages ≤ 256 := by decide

theorem witness_InterruptNotTaken :
    (h0.ctl.interrupt = false ∨ h0.ctl.eiBlock = true ∨ h0.regs.iff1 = false) ∧
      (let s : State := { at' { r0 with iff1 := true, iff2 := true } with ctl := { h0.ctl with interrupt := true, eiBlock := true } }
       s.ctl.interrupt = false ∨ s.ctl.eiBlock = true ∨ s.regs.iff1 = false) := by decide

/-- H0 with a request and interrupts enabled in a mode. -/
def requested (m : IntMode) (bus : Byte) : State :=
  { at' { r0 with iff1 := true, iff2 := true, im := m, i := 0xC1 } with ctl := { h0.ctl with interrupt := true, bus := bus } }

theorem witness_InterruptMode0 :
    let s := requested .im0 0xFF
    Consistent s = true ∧ s.ctl.interrupt = true ∧ s.ctl.eiBlock = false ∧ s.regs.iff1 = true ∧ s.regs.im = .im0 ∧
      s.ctl.pfx = .none ∧ s.ctl.bus = 0b11#2 ++ (7 : BitVec 3) ++ 0b111#3 ∧ writable s (s.regs.sp - 1) = true ∧
      writable s (s.regs.sp - 2) = true := by decide

theorem witness_InterruptMode1 :
    let s := requested .im1 0x00
    Consistent s = true ∧ s.ctl.interrupt = true ∧ s.ctl.eiBlock = false ∧ s.regs.iff1 = true ∧ s.regs.im = .im1 ∧
      writable s (s.regs.sp - 1) = true ∧ writable s (s.regs.sp - 2) = true := by decide

theorem witness_InterruptMode2 :
    let s := requested .im2 0xFF
    Consistent s = true ∧ s.ctl.interrupt = true ∧ s.ctl.eiBlock = false ∧ s.regs.iff1 = true ∧ s.regs.im = .im2 ∧
      writable s (s.regs.sp - 1) = true ∧ writable s (s.regs.sp - 2) = true ∧
      readable s (s.regs.i ++ s.ctl.bus) = true ∧ readable s (s.regs.i ++ s.ctl.bus + 1) = true := by decide

theorem witness_HaltedCpuWakes :
    let s : State := { requested .im1 0x00 with ctl := { h0.ctl with halt := true }, pio := irqAt30 0xFF }
    Consistent s = true ∧ s.ctl.halt = true ∧ s.regs.iff1 = true ∧ s.regs.im = .im1 ∧ s.ctl.input = false ∧
      s.ctl.output = false ∧ s.pio.intEntries = [⟨0x30, 1, 1⟩] ∧
      deviceAt s 0x30 = some ⟨0x30, true, false, false, .irq 0xFF, 0, 0⟩ ∧ writable s (s.regs.sp - 1) = true ∧
      writable s (s.regs.sp - 2) = true := by decide

theorem witness_PollPeriod :
    ∀ n ∈ [1, 3], let s : State := { h0 with pio := { irqAt30 0xFF with intEntries := [⟨0x30, n, n⟩] } }
      1 ≤ n ∧ deviceAt s 0x30 = some ⟨0x30, true, false, false, .irq 0xFF, 0, 0⟩ ∧ s.ctl.input = false ∧
        s.ctl.output = false ∧ s.ctl.interrupt = false := by decide

theorem witness_HaltedForever :
    let s : State := { h0 with ctl := { h0.ctl with halt := true }, pio := irqAt30 0xFF }
    runEnded s = true ∧ tame s = true ∧ idle s = true := by decide

theorem witness_ResetState :
    h0.cfg.modelClass = .flashEra ∧
      ({ h0 with cfg := { h0.cfg with modelClass := .preFlash } } : State).cfg.modelClass = .preFlash ∧
      ({ h0 with cfg := { h0.cfg with modelClass := .unrecognized } } : State).cfg.modelClass = .unrecognized ∧
      Config.standard.modelClass = .flashEra := by decide

theorem witness_StepKeepsTheInvariants : Consistent h0 = true ∧ ∃ t, step h0 = .next t :=
  ⟨by decide, exists_of_isNext (by decide)⟩

theorem witness_StepEndsIdle : idle h0 = true ∧ ∃ t, step h0 = .next t :=
  ⟨by decide, exists_of_isNext (by decide)⟩

theorem witness_TimeGrowsAndParametersStay : ∃ t, step h0 = .next t := exists_of_isNext (by decide)

/-- The step stores to the locked Flash. -/
theorem witness_LockedFlashNeverChanges :
    let s := start [0x32, 0xAA, 0x4A] (irqAt30 0xFF) { r0 with a := 0xAA } []
    (s.mem.flashLocked = true ∧ tame s = true ∧ ∀ d ∈ s.pio.devices, d.kind ≠ .lock) ∧ ∃ t, step s = .next t :=
  ⟨by decide, exists_of_isNext (by decide)⟩

theorem witness_SpecialRegistersFrame : tame h0 = true ∧ ∃ t, exec .ldir h0 = .next t :=
  ⟨by decide, exists_of_isNext (by decide)⟩

theorem witness_OnlyStoresChangeMemory :
    (tame h0 = true ∧ storesMemory (.ldRMemHl .b) = false) ∧ ∃ t, exec (.ldRMemHl .b) h0 = .next t :=
  ⟨by decide, exists_of_isNext (by decide)⟩

end Sys2Proof.Machine.Tests
end

section
/-! PROOFS of the family 10_state: the register file, and what every step keeps. Each invariant of all steps is one
relation between states, shown once to allow everything a step can do (`Runs.of`). -/

namespace Sys2Proof.Machine

/-! ## The register file -/

theorem Regs.getHalf_setHalf (x : Index) (k l : Half) (v : Byte) (g : Regs) :
    (g.setHalf x k v).getHalf x l = if l = k then v else g.getHalf x l := by
  cases k <;> cases l <;> simp [Regs.getHalf, Regs.setHalf]

/-- Settles O6: each cell law is the law of the register file for its operand form, and a pair is its
halves by definition. -/
theorem registerCells : Obligations.RegisterCells := by
  refine ⟨fun g r q v => ?_, fun g p v => Regs.getPair_setPair p v g, fun g q v => Regs.getQPair_setQPair q v g,
    fun g x v => Regs.getXY_setXY x v g, fun g x k l v => Regs.getHalf_setHalf x k l v g,
    fun g => ⟨rfl, rfl, rfl, rfl⟩, fun g v => ⟨rfl, rfl⟩⟩
  split
  case isTrue h => rw [h, Regs.get8_set8]
  case isFalse h => exact Regs.get8_set8_ne h v g

/-! ## What an action of an agent does when it goes through -/

theorem changePage_ok {n : Fin 5} {p : Byte} {k : Bool} {s t : State} {v : Unit} (h : changePage n p k s = .ok v t) :
    t = { s with mem := { s.mem with normal := s.mem.normal.setSlot n (BankSlot.fresh k p) } } := by
  unfold changePage at h
  generalize (if k = true then s.cfg.ramPages else s.cfg.flashPages) = pages at h
  split at h <;> cases h
  rfl

theorem applyAction_storeByte_ok {k : Bool} {p : Nat} {b : Byte} {s t : State} {v : Unit}
    (h : applyAction (.storeByte k p b) s = .ok v t) : t = storeSet k p b s := by
  obtain ⟨_, u, hu, hx⟩ := andThen_eq_ok h
  cases hx
  rw [checkStore_ok hu]

/-! ## The invariants -/

/-- Settles O52: the first state is the one constructed with the default parameters and reset. -/
theorem resetKeepsTheInvariants : Obligations.ResetKeepsTheInvariants :=
  ⟨powerOn_consistent powerOn_standard, rfl, rfl⟩

theorem consistent_iff {s : State} : Consistent s = true ↔
    s.mem.ram.wf = true ∧ s.mem.flash.wf = true ∧ s.mem.normal.wf = true ∧ s.regs.iff1 = s.regs.iff2 ∧
      s.dbg.history.length ≤ 512 ∧ s.dbg.historyIndex < 512 := by
  simp [Consistent, and_assoc]

theorem BankSlot.wf_fresh (k : Bool) (p : Byte) : (BankSlot.fresh k p).wf = true := by
  simp [BankSlot.wf, BankSlot.fresh]

theorem BankTable.wf_iff {t : BankTable} : t.wf = true ↔
    t.slot0.wf = true ∧ t.slot1.wf = true ∧ t.slot2.wf = true ∧ t.slot3.wf = true ∧ t.slot4.wf = true := by
  simp [BankTable.wf, and_assoc]

theorem BankTable.wf_setSlot {t : BankTable} {b : BankSlot} (ht : t.wf = true) (hb : b.wf = true) (n : Fin 5) :
    (t.setSlot n b).wf = true := by
  rw [BankTable.wf_iff] at ht ⊢
  obtain ⟨h0, h1, h2, h3, h4⟩ := ht
  fin_cases n
  · exact ⟨hb, h1, h2, h3, h4⟩
  · exact ⟨h0, hb, h2, h3, h4⟩
  · exact ⟨h0, h1, hb, h3, h4⟩
  · exact ⟨h0, h1, h2, hb, h4⟩
  · exact ⟨h0, h1, h2, h3, hb⟩

theorem BankTable.wf_slotAt {t : BankTable} (ht : t.wf = true) (n : Fin 5) : (t.slotAt n).wf = true := by
  obtain ⟨h0, h1, h2, h3, h4⟩ := BankTable.wf_iff.mp ht
  fin_cases n
  exacts [h0, h1, h2, h3, h4]

/-- The ring does not grow beyond its 512 records: it grows only when its index is at its end. -/
theorem ringPut_length_le {ring : List HistoryRecord} {i : Nat} (hl : ring.length ≤ 512) (hi : i < 512)
    (r : HistoryRecord) : (ringPut ring i r).length ≤ 512 := by
  unfold ringPut
  split
  · rwa [List.length_set]
  · rw [List.length_append, List.length_singleton]; omega

section
variable {s : State} (hs : Consistent s = true)
include hs

theorem consistent_setRegs {g : Regs} (hg : s.regs.iff1 = s.regs.iff2 → g.iff1 = g.iff2) :
    Consistent { s with regs := g } = true := by
  rw [consistent_iff] at hs ⊢
  obtain ⟨hram, hflash, hnormal, hiff, hring⟩ := hs
  exact ⟨hram, hflash, hnormal, hg hiff, hring⟩

theorem consistent_setNormal {n : BankTable} (hn : n.wf = true) :
    Consistent { s with mem := { s.mem with normal := n } } = true := by
  rw [consistent_iff] at hs ⊢
  obtain ⟨hram, hflash, -, hrest⟩ := hs
  exact ⟨hram, hflash, hn, hrest⟩

theorem consistent_setDbg {d : Debug} (hl : d.history.length ≤ 512) (hi : d.historyIndex < 512) :
    Consistent { s with dbg := d } = true := by
  rw [consistent_iff] at hs ⊢
  obtain ⟨hram, hflash, hnormal, hiff, -⟩ := hs
  exact ⟨hram, hflash, hnormal, hiff, hl, hi⟩

theorem consistent_flashFill (a n : Nat) (v : Byte) : Consistent (flashFill a n v s) = true := by
  rw [consistent_iff] at hs ⊢
  obtain ⟨hram, hflash, hrest⟩ := hs
  exact ⟨hram, Memory.wf_fill hflash a n v, hrest⟩

theorem consistent_setFreshSlot (n : Fin 5) (k : Bool) (p : Byte) :
    Consistent { s with mem := { s.mem with normal := s.mem.normal.setSlot n (BankSlot.fresh k p) } } = true :=
  have ⟨_, _, hnormal, _⟩ := consistent_iff.mp hs
  consistent_setNormal hs (BankTable.wf_setSlot hnormal (BankSlot.wf_fresh k p) n)

theorem consistent_setSlotBits (n : Fin 5) (ro nx : Bool) : Consistent (setSlotBits n ro nx s) = true :=
  have ⟨_, _, hnormal, _⟩ := consistent_iff.mp hs
  have hslot : { s.mem.normal.slotAt n with readOnly := ro, noExec := nx }.wf = true := BankTable.wf_slotAt hnormal n
  consistent_setNormal hs (BankTable.wf_setSlot hnormal hslot n)

theorem consistent_historyAppend : Consistent (historyAppend s) = true :=
  have ⟨_, _, _, _, hl, hi⟩ := consistent_iff.mp hs
  consistent_setDbg hs (ringPut_length_le hl hi _) (Nat.mod_lt _ (by decide))

end

/-- No action of an agent breaks the invariants. -/
theorem applyAction_consistent {s t : State} {x : Action} (hs : Consistent s = true) (h : applyAction x s = .ok () t) :
    Consistent t = true := by
  cases x
  case setReg r v => cases h; exact consistent_setRegs hs fun hi => by cases r <;> exact hi
  case setI | setR | setIm => cases h; exact consistent_setRegs hs id
  case setIff => cases h; exact consistent_setRegs hs fun _ => rfl
  case storeByte k p v =>
    rw [applyAction_storeByte_ok h]
    exact storeSet_consistent hs k p v
  case changePage n p k =>
    rw [changePage_ok h]
    exact consistent_setFreshSlot hs n k p
  case setSlotBits n ro nx => cases h; exact consistent_setSlotBits hs n ro nx
  case setHistory ring i =>
    cases h
    exact consistent_setDbg hs (List.length_take_le historySize ring) (Nat.mod_lt _ (by decide))
  case setProfiler on hist =>
    have ⟨_, _, _, _, hl, hi⟩ := consistent_iff.mp hs
    cases h
    exact consistent_setDbg hs hl hi
  case reset => exact resetCpu_consistent hs h
  all_goals cases h; exact hs

/-- The invariants of 10_state R51 (a), (c) and R47 are kept from one state to another. -/
def KeepsConsistent (s t : State) : Prop := Consistent s = true → Consistent t = true

theorem KeepsConsistent.touch {io w : Bool} {s t : State} (h : Touch io w s t) : KeepsConsistent s t := by
  intro hs
  cases h with
  | store k p v => exact storeSet_consistent hs k p v
  | fill a n v => exact consistent_flashFill hs a n v
  | agent t x _ _ hx => exact applyAction_consistent hs hx
  | hook t xs _ hx =>
    exact applyActions_closed (R := KeepsConsistent) (fun _ => id) (fun h h' => h' ∘ h)
      (fun hx hs => applyAction_consistent hs hx) xs s () t hx hs
  | _ => exact hs

/-- Nothing a step can do breaks the invariants. -/
theorem KeepsConsistent.runs : Runs KeepsConsistent :=
  Runs.of (fun _ => id) (fun h h' => h' ∘ h) KeepsConsistent.touch
    (regs := fun _ _ hg hs => consistent_setRegs hs hg)
    (ctl := fun _ _ => id)
    (free := fun _ _ => id)
    (reset := fun _ _ _ h hs => resetCpu_consistent hs h)
    (unmap := fun _ => id)
    (slot := fun _ n k p hs => consistent_setFreshSlot hs n k p)
    (history := fun _ => consistent_historyAppend)
    (profile := fun _ _ _ => id)
    (entry := fun _ _ _ => id)

/-- Settles O53: keeping the invariants is a relation that allows everything a step can do. -/
theorem stepKeepsTheInvariants : Obligations.StepKeepsTheInvariants := fun _ _ hs h => KeepsConsistent.runs.step h hs

/-! ## The lock of flash -/

/-- Flash is locked, and nobody is there who could unlock it. -/
def FlashSealed (s : State) : Prop :=
  s.mem.flashLocked = true ∧ tame s = true ∧ ∀ k ∈ deviceKinds s, k ≠ .lock

theorem flashSealed_iff {s : State} : FlashSealed s ↔
    s.mem.flashLocked = true ∧ tame s = true ∧ ∀ d ∈ s.pio.devices, d.kind ≠ .lock := by
  simp [FlashSealed, deviceKinds]

/-- Whether flash is sealed depends on the lock, the parameters and the kinds of the devices. -/
theorem FlashSealed.congr {s t : State} (hs : FlashSealed s) (hl : t.mem.flashLocked = true) (hc : t.cfg = s.cfg)
    (hd : deviceKinds t = deviceKinds s) : FlashSealed t := by
  obtain ⟨-, htame, hlock⟩ := hs
  rw [tame_eq] at htame
  exact ⟨hl, by rw [tame_eq, hc, hd]; exact htame, by rw [hd]; exact hlock⟩

/-- A sealed Flash store does not change and stays sealed. -/
def KeepsSealedFlash (s t : State) : Prop := FlashSealed s → t.mem.flash = s.mem.flash ∧ FlashSealed t

theorem KeepsSealedFlash.refl (s : State) : KeepsSealedFlash s s := fun hs => ⟨rfl, hs⟩

theorem KeepsSealedFlash.trans {s t u : State} (h : KeepsSealedFlash s t) (h' : KeepsSealedFlash t u) :
    KeepsSealedFlash s u := fun hs =>
  have ⟨hst, ht⟩ := h hs
  have ⟨htu, hu⟩ := h' ht
  ⟨htu.trans hst, hu⟩

/-- Every change of a Flash byte or of the lock needs what a sealed state has not: the lock open, a lock device, or an
agent of unknown behaviour. -/
theorem KeepsSealedFlash.touch {io w : Bool} {s t : State} (h : Touch io w s t) : KeepsSealedFlash s t := by
  intro hs
  have ⟨hlocked, htame, _⟩ := hs
  cases h with
  | store k p v _ hx =>
    have hk : k = true := by simpa [hlocked, htame] using hx
    subst hk
    exact ⟨rfl, hs⟩
  | fill a n v _ hx => rw [hlocked] at hx; cases hx
  | lock v hx =>
    obtain ⟨d, hd, hk⟩ := hx
    exact absurd hk ((flashSealed_iff.mp hs).2.2 d hd)
  | own p n => exact ⟨rfl, hs.congr hlocked rfl (deviceKinds_setDeviceOwn p n)⟩
  | agent t x _ hx => rw [htame] at hx; cases hx
  | hook t xs hx => rw [htame] at hx; cases hx
  | _ => exact ⟨rfl, hs⟩

/-- Nothing a step can do changes a sealed Flash store. `Reset()` locks it again. -/
theorem KeepsSealedFlash.runs : Runs KeepsSealedFlash :=
  Runs.of KeepsSealedFlash.refl KeepsSealedFlash.trans KeepsSealedFlash.touch
    (regs := fun _ _ _ hs => ⟨rfl, hs⟩)
    (ctl := fun _ _ hs => ⟨rfl, hs⟩)
    (free := fun _ _ hs => ⟨rfl, hs⟩)
    (reset := fun _ _ _ h hs => by
      obtain ⟨_, -, rfl⟩ := resetCpu_ok h
      exact ⟨rfl, hs.congr rfl rfl rfl⟩)
    (unmap := fun _ hs => ⟨rfl, hs⟩)
    (slot := fun _ _ _ _ hs => ⟨rfl, hs⟩)
    (history := fun _ hs => ⟨rfl, hs⟩)
    (profile := fun _ _ _ hs => ⟨rfl, hs⟩)
    (entry := fun _ _ _ hs => ⟨rfl, hs⟩)

/-- Settles O56: keeping a sealed Flash store is a relation that allows everything a step can do. -/
theorem lockedFlashNeverChanges : Obligations.LockedFlashNeverChanges := fun _ _ hlocked htame hkinds h =>
  have ⟨hflash, ht⟩ := KeepsSealedFlash.runs.step h (flashSealed_iff.mpr ⟨hlocked, htame, hkinds⟩)
  ⟨hflash, flashSealed_iff.mp ht⟩

/-! ## Time and parameters -/

/-- The T-state counter is not turned back, and the parameters stay. -/
def KeepsTime (s t : State) : Prop := s.timer.tstates ≤ t.timer.tstates ∧ t.cfg = s.cfg

theorem KeepsTime.refl (s : State) : KeepsTime s s := ⟨le_rfl, rfl⟩

theorem KeepsTime.trans {s t u : State} (h : KeepsTime s t) (h' : KeepsTime t u) : KeepsTime s u :=
  ⟨h.1.trans h'.1, h'.2.trans h.2⟩

theorem KeepsTime.addT (n : Nat) (s : State) : KeepsTime s (addT n s) := ⟨Nat.le_add_right _ n, rfl⟩

theorem KeepsTime.storeSet (k : Bool) (p : Nat) (v : Byte) (s : State) : KeepsTime s (storeSet k p v s) := by
  rw [KeepsTime, storeSet_timer, storeSet_cfg]
  exact KeepsTime.refl s

theorem KeepsTime.resetCpu {s t : State} {v : Unit} (h : resetCpu s = .ok v t) : KeepsTime s t := by
  obtain ⟨_, -, rfl⟩ := resetCpu_ok h
  exact KeepsTime.refl s

/-- No action of an agent turns the T-state counter back; only `addT` writes it. -/
theorem KeepsTime.applyAction {s t : State} {x : Action} (h : applyAction x s = .ok () t) : KeepsTime s t := by
  cases x
  case storeByte k p v =>
    rw [applyAction_storeByte_ok h]
    exact KeepsTime.storeSet k p v s
  case changePage n p k =>
    rw [changePage_ok h]
    exact KeepsTime.refl s
  case addT n => cases h; exact KeepsTime.addT n s
  case reset => exact KeepsTime.resetCpu h
  all_goals cases h; exact KeepsTime.refl s

theorem KeepsTime.touch {io w : Bool} {s t : State} (h : Touch io w s t) : KeepsTime s t := by
  cases h with
  | time n => exact KeepsTime.addT n s
  | store k p v => exact KeepsTime.storeSet k p v s
  | agent t x _ _ hx => exact KeepsTime.applyAction hx
  | hook t xs _ hx =>
    exact applyActions_closed (R := KeepsTime) KeepsTime.refl KeepsTime.trans KeepsTime.applyAction xs s () t hx
  | _ => exact KeepsTime.refl s

/-- Nothing a step can do turns the T-state counter back or changes a parameter. -/
theorem KeepsTime.runs : Runs KeepsTime :=
  Runs.of KeepsTime.refl KeepsTime.trans KeepsTime.touch
    (regs := fun s _ _ => KeepsTime.refl s)
    (ctl := fun s _ => KeepsTime.refl s)
    (free := fun s _ => KeepsTime.refl s)
    (reset := fun _ _ _ => KeepsTime.resetCpu)
    (unmap := KeepsTime.refl)
    (slot := fun s _ _ _ => KeepsTime.refl s)
    (history := KeepsTime.refl)
    (profile := fun _ _ s => KeepsTime.refl s)
    (entry := fun _ _ s => KeepsTime.refl s)

/-- Settles O55: the relation `KeepsTime` allows everything a step can do. -/
theorem timeGrowsAndParametersStay : Obligations.TimeGrowsAndParametersStay := fun _ _ h => KeepsTime.runs.step h

/-! ## No `pfx` and no transfer left pending -/

/-- No port transfer is under way: `input` and `output` are 0 (10_state R51 (d)). -/
def Quiet (s : State) : Prop := s.ctl.input = false ∧ s.ctl.output = false

theorem idle_iff {s : State} : idle s = true ↔ s.ctl.pfx = .none ∧ Quiet s := by
  simp [idle, Quiet, and_assoc]

/-- No port transfer is left under way, and no agent of unknown behaviour comes or goes. -/
def KeepsQuiet (s t : State) : Prop := (Quiet s → Quiet t) ∧ tame t = tame s

theorem KeepsQuiet.refl (s : State) : KeepsQuiet s s := ⟨id, rfl⟩

theorem KeepsQuiet.trans {s t u : State} (h : KeepsQuiet s t) (h' : KeepsQuiet t u) : KeepsQuiet s u :=
  ⟨h'.1 ∘ h.1, h'.2.trans h.2⟩

/-- Outside a port transfer no primitive change touches `input` or `output`, but that a hook ends with both at 0. -/
theorem KeepsQuiet.touch {w : Bool} {s t : State} (h : Touch false w s t) : KeepsQuiet s t := by
  refine ⟨fun hs => ?_, h.tame⟩
  cases h with
  | ctl c _ hio =>
    obtain ⟨hin, hout, -⟩ := hio.resolve_left (by decide)
    exact ⟨hin.trans hs.1, hout.trans hs.2⟩
  | store k p v => simpa [Quiet] using hs
  | agent t x hio => cases hio
  | hook t xs => exact ⟨rfl, rfl⟩
  | _ => exact hs

theorem KeepsQuiet.leads {w : Bool} {α : Type} {s : State} {x : Res α} (h : Leads (Touches false w) s x) :
    Leads KeepsQuiet s x := fun v t e => touches_closed KeepsQuiet.refl KeepsQuiet.trans KeepsQuiet.touch (h v t e)

theorem KeepsQuiet.resetCpu {s t : State} {v : Unit} (h : resetCpu s = .ok v t) : KeepsQuiet s t := by
  obtain ⟨_, -, rfl⟩ := resetCpu_ok h
  exact ⟨fun _ => ⟨rfl, rfl⟩, rfl⟩

@[simp] theorem finishIn_ctl_input (p : Byte) (s : State) : (finishIn p s).ctl.input = false := by
  unfold finishIn
  split
  case isTrue => rfl
  case isFalse h => exact Bool.eq_false_iff.mpr h

@[simp] theorem finishIn_ctl_output (p : Byte) (s : State) : (finishIn p s).ctl.output = s.ctl.output := by
  unfold finishIn
  split <;> rfl

@[simp] theorem finishOut_ctl_output (p : Byte) (s : State) : (finishOut p s).ctl.output = false := by
  unfold finishOut
  split
  case isTrue => rfl
  case isFalse h => exact Bool.eq_false_iff.mpr h

@[simp] theorem finishOut_ctl_input (p : Byte) (s : State) : (finishOut p s).ctl.input = s.ctl.input := by
  unfold finishOut
  split <;> rfl

/-- An input ends with `input` at 0 and `output` as it was, whatever the device did. -/
theorem KeepsQuiet.portIn (p : Byte) (s : State) : Leads KeepsQuiet s (portIn p s) := by
  intro v t h
  refine ⟨fun hs => ?_, (portIn_leads (w := true) p s v t h).tame⟩
  obtain ⟨_, u, -, hu⟩ := andThen_eq_ok h
  cases hu
  exact ⟨finishIn_ctl_input p _, (finishIn_ctl_output p _).trans hs.2⟩

/-- An output ends with `output` at 0 and `input` as it was, whatever the device did. -/
theorem KeepsQuiet.portOut (p b : Byte) (s : State) : Leads KeepsQuiet s (portOut p b s) := by
  intro v t h
  refine ⟨fun hs => ?_, (portOut_leads (w := true) p b s v t h).tame⟩
  obtain ⟨_, u, -, hu⟩ := andThen_eq_ok h
  cases hu
  exact ⟨(finishOut_ctl_input p _).trans hs.1, finishOut_ctl_output p _⟩

/-- A poll ends with both flags at 0, whatever the device did. -/
theorem KeepsQuiet.pollDevice (p : Byte) (s : State) : Leads KeepsQuiet s (pollDevice p s) := by
  intro v t h
  refine ⟨fun _ => ?_, (pollDevice_leads (w := true) p s v t h).tame⟩
  obtain ⟨_, u, -, hu⟩ := andThen_eq_ok h
  cases hu
  exact ⟨rfl, rfl⟩

/-- The execute-permission check goes on, resets the CPU, or calls its hook. -/
theorem KeepsQuiet.checkExec (s : State) : Leads KeepsQuiet s (checkExec s) := by
  unfold Machine.checkExec raiseExecViolation
  split
  · exact Leads.ok (KeepsQuiet.refl s) _
  · split
    case h_1 =>
      exact fun v t h => KeepsQuiet.trans (KeepsQuiet.touch (w := true) (.log s _)) (KeepsQuiet.resetCpu h)
    case h_2 k hk =>
      have hwild : tame s = false := wild_of_hook fun e => by rw [e] at hk; cases hk
      exact KeepsQuiet.leads (w := true) (callHook_leads (some k) _ fun _ => hwild)

theorem KeepsQuiet.bootUnmapCheck (a : Word) (s : State) : Leads KeepsQuiet s (bootUnmapCheck a s) := by
  unfold Machine.bootUnmapCheck
  split
  · intro v t h
    obtain ⟨_, u, hu, ht⟩ := andThen_eq_ok h
    cases ht
    rw [changePage_ok hu]
    exact KeepsQuiet.refl s
  · exact Leads.ok (KeepsQuiet.refl s) _

/-- Nothing a step can do leaves a port transfer under way. -/
theorem KeepsQuiet.runs : Runs KeepsQuiet where
  refl := KeepsQuiet.refl
  trans := KeepsQuiet.trans
  regs s _ _ := KeepsQuiet.refl s
  ctl _ _ hin hout := ⟨fun hs => ⟨hin.trans hs.1, hout.trans hs.2⟩, rfl⟩
  time s _ := KeepsQuiet.refl s
  free s _ := KeepsQuiet.refl s
  read k a s := KeepsQuiet.leads (w := true) (readByte_leads k a s)
  write a v s := KeepsQuiet.leads (memWrite_leads a v s)
  portIn := KeepsQuiet.portIn
  portOut := KeepsQuiet.portOut
  poll := KeepsQuiet.pollDevice
  check := KeepsQuiet.checkExec
  unmap := KeepsQuiet.bootUnmapCheck
  history := KeepsQuiet.refl
  profile _ _ s := KeepsQuiet.refl s
  entry _ _ s := KeepsQuiet.refl s

theorem finishStep_pfx {pc : Word} {n : Nat} {ran : Option Instr} {s t : State} {v : Unit}
    (h : finishStep pc n ran s = .ok v t) : t.ctl.pfx = .none := by
  obtain ⟨_, u, -, hu⟩ := andThen_eq_ok h
  obtain ⟨_, x, -, hx⟩ := andThen_eq_ok hu
  cases hx
  rfl

theorem toOutcome_eq_next {α : Type} {x : Res α} {t : State} (h : x.toOutcome = .next t) : ∃ v, x = .ok v t := by
  cases x with
  | ok v u => cases h; exact ⟨v, rfl⟩
  | fault f => cases h
  | refused r => cases h

/-- The last line of a step clears `pfx` (30_encoding R150). -/
theorem step_pfx {s t : State} (h : step s = .next t) : t.ctl.pfx = .none := by
  obtain ⟨_, hr⟩ := toOutcome_eq_next h
  obtain ⟨_, _, -, hfinish⟩ := andThen_eq_ok hr
  exact finishStep_pfx hfinish

/-- Settles O54: the last line clears `pfx`, and nothing in a step leaves a transfer under way. -/
theorem stepEndsIdle : Obligations.StepEndsIdle := fun _ _ h =>
  have ⟨hquiet, htame⟩ := KeepsQuiet.runs.step h
  ⟨fun hs => idle_iff.mpr ⟨step_pfx h, hquiet (idle_iff.mp hs).2⟩, htame⟩

end Sys2Proof.Machine
end

section
/-! PROOFS of the family 20_memory: translation, the accesses to RAM and to Flash, and the flash sequencer. A write that
passes the gate does what the table of 20_memory R121 says (`flashWrite_eq`); the statements about sequences, programs
and erases follow from that. -/

namespace Sys2Proof.Machine

/-! ## Translation -/

theorem bankOf_toNat (a : Word) : (bankOf a).toNat = a.toNat / 16384 := by
  have hlt : a.toNat / 16384 < 4 := by omega
  simp [bankOf, Nat.shiftRight_eq_div_pow, Nat.mod_eq_of_lt hlt]

theorem offsetOf_lt (a : Word) : offsetOf a < 16384 := Nat.mod_lt _ (by decide)

/-- Settles O31: the bank is the quotient and the offset the remainder of the address by the size of a bank. -/
theorem bankSplit : Obligations.BankSplit := fun a => by
  rw [bankOf_toNat, offsetOf]
  omega

/-- The boot-mapped table inherits the slot invariant: the two slots it moves get the base offset of their new page. -/
theorem bootDerive_wf {n : BankTable} (hn : n.wf = true) (c : Config) : (bootDerive c n).wf = true := by
  obtain ⟨h0, -, h2, h3, -⟩ := BankTable.wf_iff.mp hn
  have hmoved : ∀ p, (n.slot1.atPage p).wf = true := fun p => by simp [BankSlot.wf, BankSlot.atPage]
  exact BankTable.wf_iff.mpr ⟨h0, hmoved _, hmoved _, h2, h3⟩

theorem BankTable.wf_ofBank {t : BankTable} (ht : t.wf = true) (n : BitVec 2) : (t.ofBank n).wf = true := by
  obtain ⟨h0, h1, h2, h3, -⟩ := BankTable.wf_iff.mp ht
  unfold ofBank
  split
  exacts [h0, h1, h2, h3]

theorem activeTable_wf {s : State} (h : s.mem.normal.wf = true) : (activeTable s).wf = true := by
  unfold activeTable
  split
  · exact h
  · exact bootDerive_wf h s.cfg

/-- Under the slot invariant every address has a slot that starts at its page, in either view. -/
theorem slotOf_baseOffset {s : State} (h : s.mem.normal.wf = true) (a : Word) :
    (slotOf s a).baseOffset = (slotOf s a).page.toNat * pageSize :=
  eq_of_beq (BankTable.wf_ofBank (activeTable_wf h) (bankOf a))

theorem windowsOn_iff {s : State} : windowsOn s = true ↔ s.mem.view = .normal ∨ s.cfg.remapInBootView = true := by
  simp [windowsOn]

theorem bankOf_eq_iff {a : Word} {n : BitVec 2} : (bankOf a == n) = true ↔ a.toNat / 16384 = n.toNat := by
  rw [beq_iff_eq, ← bankOf_toNat, BitVec.toNat_inj]

theorem win27_iff {s : State} {a : Word} : win27 s a = true ↔
    0 < s.mem.remap27.toNat ∧ (s.mem.view = .normal ∨ s.cfg.remapInBootView = true) ∧ 0xC000 ≤ a.toNat ∧
      0x10000 ≤ a.toNat + s.cfg.remapUnit * min s.mem.remap27.toNat s.cfg.remap27MaxUnits := by
  have hbank : (bankOf a == 3) = true ↔ 0xC000 ≤ a.toNat := by
    rw [bankOf_eq_iff]
    change a.toNat / 16384 = 3 ↔ _
    omega
  simp only [win27, Bool.and_eq_true, decide_eq_true_iff, windowsOn_iff, hbank, and_assoc]

theorem win28_iff {s : State} {a : Word} : win28 s a = true ↔
    0 < s.mem.remap28.toNat ∧ (s.mem.view = .normal ∨ s.cfg.remapInBootView = true) ∧ 0x8000 ≤ a.toNat ∧
      a.toNat < 0xC000 ∧ s.cfg.remap28Base ≤ offsetOf a ∧
      offsetOf a < s.cfg.remap28Base + s.cfg.remapUnit * s.mem.remap28.toNat := by
  have hbank : (bankOf a == 2) = true ↔ 0x8000 ≤ a.toNat ∧ a.toNat < 0xC000 := by
    rw [bankOf_eq_iff]
    change a.toNat / 16384 = 2 ↔ _
    omega
  simp only [win28, Bool.and_eq_true, decide_eq_true_iff, windowsOn_iff, hbank, and_assoc]

theorem shadowed_iff {s : State} {a : Word} : shadowed s a = true ↔
    s.cfg.ramVersion = 2 ∧ (slotOf s a).isRam = true ∧ 2 < (slotOf s a).page.toNat := by
  simp [shadowed, and_assoc]

/-- Settles O32: each test of `resolve` says what its rule says, and a slot starts at its page. -/
theorem resolutionOrder : Obligations.ResolutionOrder := by
  intro s a hwf c o slot on n27 n28
  have hslot : slot = slotOf s a := by
    simp only [slot, slotOf, activeTable]
    cases s.mem.view <;> rfl
  simp only [hslot, resolve, win27_iff, win28_iff, shadowed_iff, slotOf_baseOffset hwf, offsetOf, pageSize,
    Nat.zero_mul, Nat.zero_add, Nat.one_mul, c, o, on, n27, n28]

/-! ## The bank tables -/

theorem changePage_of_lt {p : Byte} {k : Bool} {s : State}
    (h : p.toNat < if k then s.cfg.ramPages else s.cfg.flashPages) (n : Fin 5) : changePage n p k s =
      .ok () { s with mem := { s.mem with normal := s.mem.normal.setSlot n (BankSlot.fresh k p) } } := if_pos h

@[simp] theorem BankTable.slotAt_setSlot (t : BankTable) (n : Fin 5) (b : BankSlot) : (t.setSlot n b).slotAt n = b := by
  fin_cases n <;> rfl

theorem bootSlot2Bit0_eq (c : Config) : bootSlot2Bit0 c = c.bootSlot2Bit0.getD (decide (c.flashVersion ≠ 1)) := by
  unfold bootSlot2Bit0
  cases c.bootSlot2Bit0 with
  | some bit => rfl
  | none => simp [bne, beq_eq_decide]

theorem activeTable_normal {s : State} (h : s.mem.view = .normal) : activeTable s = s.mem.normal := by
  rw [activeTable, h]

theorem activeTable_bootMapped {s : State} (h : s.mem.view = .bootMapped) :
    activeTable s = bootDerive s.cfg s.mem.normal := by
  rw [activeTable, h]

/-- Settles O33: the boot-mapped table is `bootDerive` of the normal one, whatever a page change has put there. -/
theorem bootTable : Obligations.BootTable := by
  refine ⟨fun s => activeTable_normal, fun s h => ?_, fun s n p h => ⟨_, changePage_of_lt h n, ?_, rfl⟩⟩
  · rw [activeTable_bootMapped h, bootDerive, bootSlot2Bit0_eq]
    rfl
  · exact BankTable.slotAt_setSlot _ n _

/-! ## Writes to RAM -/

theorem sameMap_afterWrite (a : Word) (v : Byte) (s : State) : sameMap s (afterWrite a v s) :=
  (sameMap_of_mem (t := setDirection false true s) rfl rfl).trans <| (sameMap_storeSet _ _ _ _).trans <|
    (sameMap_addTGated _ _).trans (sameMap_of_mem rfl rfl)

/-- A byte written to RAM stands at the address it was written to. -/
theorem byteAt_afterWrite {s : State} {a : Word} (hram : (resolve s a).1 = true) (hwf : s.mem.ram.wf = true)
    (v : Byte) : byteAt (afterWrite a v s) a = v := by
  have hstored : (afterWrite a v s).mem.ram = Memory.set s.mem.ram (resolve s a).2 v := by
    simp [afterWrite, storeSet, hram]
  rw [byteAt, (sameMap_afterWrite a v s).resolve, storeGet, if_pos hram, hstored]
  exact Memory.get_set_same hwf _ v

theorem writable_ram {s : State} {a : Word} (h : writable s a = true) : (resolve s a).1 = true := by
  simp only [writable, Bool.and_eq_true] at h
  exact h.1.1.2

/-- Settles O34: the byte stands where the write resolved to, and a view changes no byte. -/
theorem roundTrip : Obligations.RoundTrip := by
  intro s a b v w hs hw
  obtain ⟨hwf, -⟩ := consistent_iff.mp hs
  refine ⟨afterWrite a v s, memWrite_writable v hw, fun hread hsame => ?_⟩
  have hbyte : byteAt (setView w (afterWrite a v s)) b = v := by
    calc byteAt (setView w (afterWrite a v s)) b
      _ = storeGet (afterWrite a v s) (resolve s a).1 (resolve s a).2 := by rw [byteAt, hsame]; rfl
      _ = byteAt (afterWrite a v s) a := by rw [byteAt, (sameMap_afterWrite a v s).resolve]
      _ = v := byteAt_afterWrite (writable_ram hw) hwf v
  exact ⟨_, by rw [memRead_readable hread, hbyte]⟩

/-- A write to a byte that exists and has no write-break mark is its effect, then the timing and the bus latch. -/
theorem memWrite_of_effect {s t : State} {a : Word} {v : Byte}
    (hin : inStore s.cfg (resolve s a).1 (resolve s a).2 = true)
    (hmark : markedFor (·.onWrite) (canonOf (resolve s a).1 (resolve s a).2) s = false)
    (heffect : writeEffect a v (resolve s a) (setDirection false true s) = .ok () t) (hm : t.mem.marks = s.mem.marks) :
    memWrite a v s = .ok () (setBus v (addTGated (delay t.cfg .write (resolve s a).1) t)) := by
  have hd : sameMap s (setDirection false true s) := sameMap_of_mem rfl rfl
  have hmark' : ∀ n, markedFor (·.onWrite) (canonOf (resolve s a).1 (resolve s a).2) (addTGated n t) = false :=
    fun n => by simpa [markedFor, hm] using hmark
  simp only [memWrite, hd.resolve, checkStore, setDirection_cfg, hin, if_true, andThen_ok, heffect, writeBreak, hmark',
    Bool.false_eq_true, if_false]

theorem writeEffect_readOnly {s : State} {a : Word} (v : Byte) (hram : (resolve s a).1 = true)
    (hro : (slotOf s a).readOnly = true) (hout : inWindow s a = false) :
    writeEffect a v (resolve s a) s = .ok () s := by
  simp [writeEffect, hram, hro, hout]

theorem setBus_addTGated (v : Byte) (n : Nat) (s : State) : setBus v (addTGated n s) = addTGated n (setBus v s) := by
  unfold addTGated
  rw [apply_ite (setBus v)]
  rfl

/-- Settles O35: outside the windows the write has no effect but its timing and the bus; inside one it is a plain
write. -/
theorem readOnlySlot : Obligations.ReadOnlySlot := by
  intro s a v hin hram hro hmark
  refine ⟨fun hout => ?_, fun hwin hwf => ⟨_, memWrite_writable v ?_, byteAt_afterWrite hram hwf v⟩⟩
  · have hnothing := writeEffect_readOnly (s := setDirection false true s) v hram hro hout
    rw [memWrite_of_effect hin hmark hnothing rfl, setBus_addTGated, hram]
    rfl
  · rw [writable, hin, hmark, hram, hwin]
    rfl

/-! ## The gate of flash writes -/

theorem flashWriteAllowed_iff {s : State} {page : Byte} : flashWriteAllowed s page = true ↔
    s.mem.flashLocked = false ∧ s.cfg.modelClass = .flashEra ∧ ((page ≠ 0x3F ∧ page ≠ 0x2F) ∨ s.cfg.capA = true) ∧
      ((page ≠ 0x7F ∧ page ≠ 0x6F) ∨ s.cfg.capB = true ∨ s.cfg.capC = false) := by
  simp only [flashWriteAllowed, Bool.and_eq_true, Bool.or_eq_true, Bool.not_eq_true', beq_iff_eq, bne_iff_ne, and_assoc,
    or_assoc]

/-- An absent hook leaves nothing of a violation but its line in the output stream (60_exceptions R522). -/
theorem raiseFlashViolation_unhooked {s : State} (h : s.cfg.hooks.invalidFlash = none) (a : Word) (v : Byte) :
    raiseFlashViolation a v s = .ok () (logLine (.event (.invalidFlash a v)) s) := by
  rw [raiseFlashViolation, h, callHook]

/-- Settles O36: a write the gate rejects only raises the event, and an absent hook does nothing about it. -/
theorem flashGate : Obligations.FlashGate := by
  refine ⟨fun s page => flashWriteAllowed_iff, fun s a v htarget hclosed hhook => ?_⟩
  have hraise := raiseFlashViolation_unhooked (s := setDirection false true s) hhook a v
  have hwrite := memWrite_flash (t := logLine (.event (.invalidFlash a v)) (setDirection false true s)) htarget
    (by rw [hclosed]; exact hraise) rfl
  exact ⟨_, hwrite, by simp, by simp, by simp, by simp⟩

/-! ## The flash sequencer -/

theorem recover_unhooked {s : State} (h : s.cfg.hooks.invalidFlash = none) (a : Word) (v : Byte) :
    recover a v s = .ok () (setFlashState .read (logLine (.event (.invalidFlash a v)) s)) := by
  rw [recover, raiseFlashViolation_unhooked h]
  rfl

/-- What a flash write does to the Flash store before the sequencer moves: a program, an erase, or nothing. -/
def flashWork (a : Word) (v : Byte) (s : State) : Res Unit :=
  match s.mem.flashState with
  | .program | .fastmodeProg => byteProgram a v s
  | .erase55 => if v = 0x10 then chipErase s else if v = 0x30 then sectorErase a s else .ok () s
  | _ => .ok () s

/-- The end of a flash write: the sequencer goes where the table says, or recovers. -/
def flashMove (a : Word) (v : Byte) (next : Option FlashState) (s : State) : Res Unit :=
  match next with
  | some x => (flashWork a v s).andThen fun _ s => flashGoto x s
  | none => recover a v s

/-- The transitions of 20_memory R105 to R120 are the cells of the table of R121. The transitions and the table test the
address and the byte in different orders, which no byte tells apart. -/
theorem flashWrite_eq (a : Word) (v : Byte) (s : State) :
    flashWrite a v s = flashMove a v (flashTable s.cfg.flashVersion s.mem.flashState a v) s := by
  cases hx : s.mem.flashState
  case program | fastmodeProg => simp only [flashWrite, flashTable, flashMove, flashWork, hx]
  all_goals
    simp only [flashWrite, flashTable, hx, isAAA_eq, is555_eq, beq_iff_eq, bne_iff_ne, Bool.and_eq_true,
      Bool.or_eq_true, decide_eq_true_eq]
    split_ifs <;> simp_all [flashMove, flashWork]

/-- The state a write leaves after the sequencer has dealt with it: the timing and the bus latch of a write. -/
def afterFlash (v : Byte) (s : State) : State := setBus v (addTGated (delay s.cfg .write false) s)

@[simp] theorem afterFlash_mem (v : Byte) (s : State) : (afterFlash v s).mem = s.mem := by simp [afterFlash]
@[simp] theorem afterFlash_log (v : Byte) (s : State) : (afterFlash v s).log = s.log := by simp [afterFlash]
@[simp] theorem afterFlash_cfg (v : Byte) (s : State) : (afterFlash v s).cfg = s.cfg := by simp [afterFlash]

/-- A write that passes the gate does what the table says. -/
theorem memWrite_flashWritable {s t : State} {a : Word} {v : Byte} (hw : flashWritable s a = true)
    (hmove : flashMove a v (flashTable s.cfg.flashVersion s.mem.flashState a v) (setDirection false true s) = .ok () t)
    (hmarks : t.mem.marks = s.mem.marks) : memWrite a v s = .ok () (afterFlash v t) := by
  simp only [flashWritable, Bool.and_eq_true] at hw
  refine memWrite_flash hw.1 ?_ hmarks
  rw [if_pos hw.2, flashWrite_eq]
  exact hmove

/-- A write whose cell names a next state: the program or erase, if any, then the move. -/
theorem memWrite_of_cell {s t : State} {a : Word} {v : Byte} {x : FlashState} (hw : flashWritable s a = true)
    (hcell : flashTable s.cfg.flashVersion s.mem.flashState a v = some x)
    (hwork : flashWork a v (setDirection false true s) = .ok () t) (hmarks : t.mem.marks = s.mem.marks) :
    memWrite a v s = .ok () (afterFlash v (setFlashState x t)) := by
  refine memWrite_flashWritable hw ?_ hmarks
  rw [hcell, flashMove, hwork]
  rfl

/-- A write whose cell says recovery, with no hook present. -/
theorem memWrite_of_recovery {s : State} {a : Word} {v : Byte} (hw : flashWritable s a = true)
    (hcell : flashTable s.cfg.flashVersion s.mem.flashState a v = none) (hhook : s.cfg.hooks.invalidFlash = none) :
    memWrite a v s = .ok () (afterFlash v (setFlashState .read
      (logLine (.event (.invalidFlash a v)) (setDirection false true s)))) := by
  refine memWrite_flashWritable hw ?_ rfl
  rw [hcell]
  exact recover_unhooked (s := setDirection false true s) hhook a v

@[simp] theorem slotOf_setDirection (rd wr : Bool) (s : State) (a : Word) :
    slotOf (setDirection rd wr s) a = slotOf s a := rfl
@[simp] theorem flashAddr_setDirection (rd wr : Bool) (s : State) (a : Word) :
    flashAddr (setDirection rd wr s) a = flashAddr s a := rfl
@[simp] theorem storeGet_setDirection (rd wr : Bool) (s : State) (k : Bool) (p : Nat) :
    storeGet (setDirection rd wr s) k p = storeGet s k p := rfl

/-- A write that reaches the sequencer names an existing Flash byte, through its slot. -/
theorem flashWritable_resolve {s : State} {a : Word} (h : flashWritable s a = true) :
    resolve s a = (false, flashAddr s a) ∧ inStore s.cfg false (flashAddr s a) = true := by
  simp only [flashWritable, flashTarget, Bool.and_eq_true, Bool.not_eq_true'] at h
  obtain ⟨⟨⟨hin, hflash⟩, -⟩, -⟩ := h
  obtain ⟨hr, -⟩ := resolve_flash hflash
  rw [hr] at hin
  exact ⟨hr, hin⟩

/-- The cells of the table that neither program nor erase. -/
def movesOnly (x : FlashState) (v : Byte) : Bool :=
  match x with
  | .program | .fastmodeProg => false
  | .erase55 => v != 0x10 && v != 0x30
  | _ => true

/-- The cells that program or erase. -/
theorem movesOnly_eq_false {x : FlashState} {v : Byte} (h : movesOnly x v = false) :
    (x = .program ∨ x = .fastmodeProg) ∨ (x = .erase55 ∧ v = 0x10) ∨ (x = .erase55 ∧ v = 0x30) := by
  cases x
  case program | fastmodeProg => simp
  case erase55 => simpa [movesOnly, or_iff_not_imp_left] using h
  all_goals cases h

theorem flashWork_of_movesOnly {a : Word} {v : Byte} {s : State} (h : movesOnly s.mem.flashState v = true) :
    flashWork a v s = .ok () s := by
  cases hx : s.mem.flashState <;> rw [hx] at h
  case program | fastmodeProg => cases h
  case erase55 =>
    simp only [movesOnly, Bool.and_eq_true, bne_iff_ne] at h
    simp only [flashWork, hx, if_neg h.1, if_neg h.2]
  all_goals simp only [flashWork, hx]

/-- The state a byte program leaves: the bits `v` has cleared are cleared in the byte, and the error bit is set where that
is not `v`. -/
def programmed (a : Word) (v : Byte) (s : State) : State :=
  let stored := storeGet s false (flashAddr s a) &&& v
  { s with mem := { s.mem with flash := Memory.set s.mem.flash (flashAddr s a) stored
                               flashError := s.mem.flashError || stored != v } }

theorem byteProgram_eq {a : Word} {s : State} (h : inStore s.cfg false (flashAddr s a) = true) (v : Byte) :
    byteProgram a v s = .ok () (programmed a v s) := by
  simp only [byteProgram, checkStore, h, if_true, andThen_ok, programmed]
  cases hstored : storeGet s false (flashAddr s a) &&& v != v
  · rw [Bool.or_false]
    rfl
  · rw [Bool.or_true]
    rfl

theorem flashWork_program {a : Word} {v : Byte} {s : State} (h : inStore s.cfg false (flashAddr s a) = true)
    (hx : s.mem.flashState = .program ∨ s.mem.flashState = .fastmodeProg) :
    flashWork a v s = .ok () (programmed a v s) := by
  rcases hx with hx | hx <;> simp only [flashWork, hx, byteProgram_eq h]

theorem flashWork_chipErase {a : Word} {s : State} (hx : s.mem.flashState = .erase55) (hm : s.mem.marks = []) :
    flashWork a 0x10 s = .ok () (flashFill 0 (storeSize s.cfg false) 0xFF s) := by
  simp [flashWork, hx, chipErase, hm]

/-- Settles O37: the write does what its cell says, a recovery, a move alone, a byte program or a chip erase. -/
theorem flashTransitions : Obligations.FlashTransitions := by
  intro s a v hw hhooks hmarks hsector
  obtain ⟨-, hin⟩ := flashWritable_resolve hw
  cases hcell : flashTable s.cfg.flashVersion s.mem.flashState a v with
  | none =>
    have hhook : s.cfg.hooks.invalidFlash = none := by rw [hhooks]; rfl
    exact ⟨_, memWrite_of_recovery hw hcell hhook, by simp, by simp⟩
  | some x =>
    cases hmoves : movesOnly s.mem.flashState v with
    | true =>
      exact ⟨_, memWrite_of_cell hw hcell (flashWork_of_movesOnly hmoves) rfl, by simp, by simp, by simp⟩
    | false =>
      rcases movesOnly_eq_false hmoves with hprog | ⟨herase, rfl⟩ | hboth
      · refine ⟨_, memWrite_of_cell hw hcell (flashWork_program hin hprog) rfl, by simp, by simp [programmed], ?_⟩
        exact hprog.elim .inl (.inr ∘ .inl)
      · exact ⟨_, memWrite_of_cell hw hcell (flashWork_chipErase herase hmarks) rfl, by simp, by simp,
          .inr (.inr (.inl ⟨herase, rfl⟩))⟩
      · exact absurd hboth hsector

/-! ## Byte programs -/

theorem storeGet_programmed (a : Word) (v : Byte) (s : State) (k : Bool) (p : Nat) : storeGet (programmed a v s) k p =
    storeGet (storeSet false (flashAddr s a) (storeGet s false (flashAddr s a) &&& v) s) k p := by
  cases k <;> rfl

theorem storeGet_afterFlash (v : Byte) (x : FlashState) (s : State) (k : Bool) (p : Nat) :
    storeGet (afterFlash v (setFlashState x s)) k p = storeGet s k p := by
  simp [storeGet]

/-- `t` maps every address to the byte `s` maps it to: tables, view, windows and parameters are the same. -/
structure SameMapping (s t : State) : Prop where
  normal : t.mem.normal = s.mem.normal
  view : t.mem.view = s.mem.view
  remap27 : t.mem.remap27 = s.mem.remap27
  remap28 : t.mem.remap28 = s.mem.remap28
  cfg : t.cfg = s.cfg

theorem SameMapping.resolve {s t : State} (h : SameMapping s t) (a : Word) : resolve t a = resolve s a := by
  unfold Machine.resolve win27 win28 windowsOn shadowed slotOf activeTable
  rw [h.normal, h.view, h.remap27, h.remap28, h.cfg]

/-- The byte an address of Flash names after a write to Flash. -/
theorem byteAt_afterFlash {s t : State} {a : Word} (h : SameMapping s t) (hr : resolve s a = (false, flashAddr s a))
    (v : Byte) (x : FlashState) :
    byteAt (afterFlash v (setFlashState x t)) a = storeGet t false (flashAddr s a) := by
  have hm : SameMapping s (afterFlash v (setFlashState x t)) :=
    ⟨by simp [h.normal], by simp [h.view], by simp [h.remap27], by simp [h.remap28], by simp [h.cfg]⟩
  rw [byteAt, hm.resolve, hr, storeGet_afterFlash]

/-- The table's cell where a byte is programmed. -/
theorem flashTable_program {x : FlashState} (hx : x = .program ∨ x = .fastmodeProg) (version : Nat) (a : Word) (v : Byte) :
    flashTable version x a v = some (if x = .program then .read else .fastmode) := by
  rcases hx with rfl | rfl <;> rfl

/-- Settles O38: the byte the address names becomes the old byte AND `v`, and the mapping stays. -/
theorem Flash.byteProgram : Obligations.ByteProgram := by
  intro s a v hs hw hx
  obtain ⟨hram, hflash, -⟩ := consistent_iff.mp hs
  obtain ⟨hr, hin⟩ := flashWritable_resolve hw
  have hbyte : byteAt s a = storeGet s false (flashAddr s a) := by rw [byteAt, hr]
  have hmap : SameMapping s (programmed a v (setDirection false true s)) := ⟨rfl, rfl, rfl, rfl, rfl⟩
  refine ⟨_, memWrite_of_cell hw (flashTable_program hx _ a v) (flashWork_program hin hx) rfl, ?_, fun k p hne => ?_, ?_,
    by simp, by simp [programmed]⟩
  · rw [byteAt_afterFlash hmap hr, storeGet_programmed, hbyte]
    exact storeGet_storeSet_same (s := setDirection false true s) hram hflash false _ _
  · rw [hr] at hne
    rw [storeGet_afterFlash, storeGet_programmed]
    exact storeGet_storeSet_ne (setDirection false true s) _ hne
  · rw [hbyte]
    simp [programmed]

/-! ## Command sequences -/

/-- The state the sequencer is in after writes that only move it. -/
def sequencerPath (version : Nat) : FlashState → List (Word × Byte) → Option FlashState
  | x, [] => some x
  | x, w :: ws =>
    if movesOnly x w.2 then (flashTable version x w.1 w.2).bind fun y => sequencerPath version y ws else none

/-- Writes that only move the sequencer leave everything else of the memory context. -/
theorem writeAll_sequencerPath {s u : State} {ws : List (Word × Byte)} {x y : FlashState}
    (hw : ∀ w ∈ ws, flashWritable s w.1 = true) (hu : SeqOnly x s u)
    (h : sequencerPath s.cfg.flashVersion x ws = some y) : ∃ t, writeAll ws u = .ok () t ∧ SeqOnly y s t := by
  induction ws generalizing x u with
  | nil =>
    cases h
    exact ⟨u, rfl, hu⟩
  | cons w ws ih =>
    obtain ⟨hfirst, hrest⟩ := List.forall_mem_cons.mp hw
    have hx : u.mem.flashState = x := by rw [hu.1]
    rw [sequencerPath] at h
    split at h
    case isFalse => cases h
    case isTrue hmoves =>
      obtain ⟨z, hcell, hpath⟩ := Option.bind_eq_some_iff.mp h
      rw [← hx] at hmoves hcell
      rw [← hu.2] at hcell
      have hwork := flashWork_of_movesOnly (a := w.1) (s := setDirection false true u) hmoves
      rw [writeAll, memWrite_of_cell ((hu.flashWritable _).trans hfirst) hcell hwork rfl]
      exact ih hrest ⟨by simp [hu.1], by simp [hu.2]⟩ hpath

theorem writeAll_append (ws ws' : List (Word × Byte)) (s : State) :
    writeAll (ws ++ ws') s = (writeAll ws s).andThen fun _ t => writeAll ws' t := by
  induction ws generalizing s with
  | nil => rfl
  | cons w ws ih =>
    rw [List.cons_append, writeAll, writeAll]
    cases memWrite w.1 w.2 s with
    | ok v t => exact ih t
    | fault f => rfl
    | refused r => rfl

theorem SeqOnly.refl {s : State} {x : FlashState} (h : s.mem.flashState = x) : SeqOnly x s s := ⟨by rw [← h], rfl⟩

theorem memWrite_chipErase {s : State} {a : Word} (hw : flashWritable s a = true) (hx : s.mem.flashState = .erase55)
    (hmarks : s.mem.marks = []) : memWrite a 0x10 s = .ok () (afterFlash 0x10 (setFlashState .read
      (flashFill 0 (storeSize s.cfg false) 0xFF (setDirection false true s)))) :=
  memWrite_of_cell hw (by rw [hx]; rfl) (flashWork_chipErase (s := setDirection false true s) hx hmarks) rfl

/-- Settles O40: five writes lead the sequencer to ERASE_55, and the sixth fills the Flash store. -/
theorem Flash.chipErase : Obligations.ChipErase := by
  intro s a1 a2 a3 a4 a5 a6 hread hmarks hw hA hB
  simp only [List.forall_mem_cons] at hw hA hB
  obtain ⟨h1, h2, h3, h4, h5, h6, -⟩ := hw
  obtain ⟨hA1, hA3, hA4, -⟩ := hA
  obtain ⟨hB2, hB5, -⟩ := hB
  have hpath : sequencerPath s.cfg.flashVersion .read
      [(a1, 0xAA), (a2, 0x55), (a3, 0x80), (a4, 0xAA), (a5, 0x55)] = some .erase55 := by
    simp [sequencerPath, movesOnly, flashTable, hA1, hA3, hA4, hB2, hB5]
  obtain ⟨u, hcommands, hmem, hcfg⟩ :=
    writeAll_sequencerPath (by simp [h1, h2, h3, h4, h5]) (SeqOnly.refl hread) hpath
  have herase := memWrite_chipErase (a := a6) ((SeqOnly.flashWritable ⟨hmem, hcfg⟩ a6).trans h6) (by rw [hmem])
    (by rw [hmem]; exact hmarks)
  refine ⟨afterFlash 0x10 (setFlashState .read
    (flashFill 0 (storeSize u.cfg false) 0xFF (setDirection false true u))), ?_, fun p hp => ?_, ?_⟩
  · change writeAll ([(a1, 0xAA), (a2, 0x55), (a3, 0x80), (a4, 0xAA), (a5, 0x55)] ++ [(a6, 0x10)]) s = _
    rw [writeAll_append, hcommands, andThen_ok, writeAll, herase]
    rfl
  · rw [storeGet_afterFlash, storeGet_flashFill, hcfg, if_pos ⟨rfl, Nat.zero_le p, by simpa [storeSize] using hp⟩]
  · simp [flashFill, hmem]

/-! ## Sector erases -/

/-- The first byte of the sector of the 8 KiB unit `u` on a chip of `top` such units (20_memory R127). -/
def sectorStart (top u : Nat) : Nat :=
  if u < top - 8 then u / 8 * 8 * 8192 else if u < top - 4 then (top - 8) * 8192
  else if u < top - 3 then (top - 4) * 8192 else if u < top - 2 then (top - 3) * 8192 else (top - 2) * 8192

/-- The length of the sector of the 8 KiB unit `u` on a chip of `top` such units (20_memory R127). -/
def sectorSize (top u : Nat) : Nat :=
  if u < top - 8 then 8 * 8192 else if u < top - 4 then 4 * 8192 else if u < top - 2 then 8192 else 2 * 8192

/-- An address lies in the sector of its 8 KiB unit. -/
theorem sector_mem {top p : Nat} (h : 8 ≤ top) (hp : p < top * 8192) :
    sectorStart top (p / 8192) ≤ p ∧ p < sectorStart top (p / 8192) + sectorSize top (p / 8192) := by
  unfold sectorStart sectorSize
  split_ifs <;> omega

/-- No sector ends beyond the chip, whose size is a whole number of pages. -/
theorem sector_end_le {top u : Nat} (h : 8 ≤ top) (heven : top % 2 = 0) (hu : u < top) :
    sectorStart top u + sectorSize top u ≤ top * 8192 := by
  unfold sectorStart sectorSize
  split_ifs <;> omega

/-- The default table gives the sector of the 8 KiB unit of the address. -/
theorem defaultSectorRange_eq (flashPages : Nat) {page : Byte} {o unit : Nat} (ho : o < 16384)
    (hunit : (page.toNat * 16384 + o) / 8192 = unit) : defaultSectorRange flashPages page o =
      (sectorStart (flashPages * 2) unit, sectorStart (flashPages * 2) unit + sectorSize (flashPages * 2) unit) := by
  have hunit' : page.toNat * 2 + o / 0x2000 % 2 = unit := by omega
  simp only [defaultSectorRange, hunit', sectorStart, sectorSize]
  split_ifs <;> simp only [Prod.mk.injEq] <;> omega

theorem sectorRange_default {c : Config} {page : Byte} {o unit : Nat} (hd : c.sectorRange = .default)
    (h4 : 4 ≤ c.flashPages) (ho : o < 16384) (hpage : page.toNat < c.flashPages)
    (hunit : (page.toNat * 16384 + o) / 8192 = unit) : sectorRange c page o = some
      (sectorStart (c.flashPages * 2) unit, sectorStart (c.flashPages * 2) unit + sectorSize (c.flashPages * 2) unit) := by
  have hsize : storeSize c false = c.flashPages * 2 * 8192 := by simp [storeSize, pageSize, Nat.mul_assoc]
  have hend : sectorStart (c.flashPages * 2) unit + sectorSize (c.flashPages * 2) unit ≤ storeSize c false := by
    rw [hsize]
    exact sector_end_le (by omega) (by omega) (by omega)
  simp only [sectorRange, hd, defaultSectorRange_eq _ ho hunit, hend, h4, decide_true, Bool.or_true, Bool.and_true,
    if_true]

theorem memWrite_sectorErase {s : State} {a : Word} {start size : Nat} (hw : flashWritable s a = true)
    (hx : s.mem.flashState = .erase55)
    (hrange : sectorRange s.cfg (slotOf s a).page (offsetOf a) = some (start, start + size)) :
    memWrite a 0x30 s = .ok () (afterFlash 0x30 (setFlashState .read
      (flashFill start size 0xFF (setDirection false true s)))) := by
  have hwork : flashWork a 0x30 (setDirection false true s) =
      .ok () (flashFill start size 0xFF (setDirection false true s)) := by
    simp [flashWork, hx, sectorErase, hrange]
  exact memWrite_of_cell hw (by rw [hx]; rfl) hwork rfl

/-- Settles O41: the erase fills the sector of the unit the address resolves to. -/
theorem Flash.sectorErase : Obligations.SectorErase := by
  intro s a hw hwf hx hd h4 hpage K T u start size
  have ho := offsetOf_lt a
  have hrange : sectorRange s.cfg (slotOf s a).page (offsetOf a) = some (start, start + size) :=
    sectorRange_default hd h4 ho hpage rfl
  have haddr : (resolve s a).2 = (slotOf s a).page.toNat * 16384 + offsetOf a := by
    rw [(flashWritable_resolve hw).1, flashAddr, slotOf_baseOffset hwf]
  have hunit : (resolve s a).2 / 8192 = u := by rw [haddr]; rfl
  have hin : start ≤ (resolve s a).2 ∧ (resolve s a).2 < start + size := by
    have hmem := sector_mem (top := T) (p := (resolve s a).2) (by omega) (by omega)
    rwa [hunit] at hmem
  clear_value start size
  refine ⟨_, memWrite_sectorErase hw hx hrange, by simp, hin.1, hin.2, fun p h h' => ?_, fun p h => ?_,
    by simp [flashFill], by simp [flashFill]⟩
  · rw [storeGet_afterFlash, storeGet_flashFill, if_pos ⟨rfl, h, h'⟩]
  · rw [storeGet_afterFlash, storeGet_flashFill, if_neg (by omega), storeGet_setDirection]

/-! ## Reads of Flash -/

/-- A Flash byte outside the windows is read through its slot. -/
theorem resolve_flashSlot {s : State} {a : Word} (hout : inWindow s a = false) (hslot : (slotOf s a).isRam = false) :
    resolve s a = (false, flashAddr s a) := by
  simp only [inWindow, Bool.or_eq_false_iff] at hout
  simp only [resolve, hout.1, hout.2, shadowed, hslot, Bool.and_false, Bool.false_and, Bool.false_eq_true, if_false]
  rfl

theorem flashStored_of_inStore {s : State} {a : Word} (h : inStore s.cfg false (flashAddr s a) = true) :
    flashStored a s = .ok (storeGet s false (flashAddr s a)) s := by
  simp [flashStored, checkStore, h]

theorem flashRead_of_ne_autoselect {s : State} {a : Word} (h : inStore s.cfg false (flashAddr s a) = true)
    (hx : s.mem.flashState ≠ .autoselect) :
    flashRead a s = .ok (storeGet s false (flashAddr s a)) (setFlashState .read s) := by
  unfold flashRead
  split
  case h_1 hauto => exact absurd hauto hx
  case h_2 => exact flashStored_of_inStore (s := setFlashState .read s) h

/-- In READ the decoder would change nothing, so a read of a Flash byte is the decoder's in every state. -/
theorem readValue_flash {s : State} {a : Word} (hout : inWindow s a = false) (hslot : (slotOf s a).isRam = false)
    (hin : inStore s.cfg false (flashAddr s a) = true) : readValue a s = flashRead a s := by
  by_cases hx : s.mem.flashState = .read
  · have hsame : setFlashState .read s = s := by rw [setFlashState, ← hx]
    rw [flashRead_of_ne_autoselect hin (by simp [hx]), hsame]
    simp [readValue, decodedRead, hx, resolve_flashSlot hout hslot]
  · simp [readValue, decodedRead, hx, hout, hslot]

/-- A read of a byte that exists and has no read-break mark returns its value, with the timing and the bus latch. -/
theorem readByte_of_value {s t : State} {kind : AccessKind} {a : Word} {v : Byte}
    (hin : inStore s.cfg (resolve s a).1 (resolve s a).2 = true)
    (hmark : markedFor (·.onRead) (canonOf (resolve s a).1 (resolve s a).2) s = false)
    (hvalue : readValue a (setDirection true false s) = .ok v t) (hm : t.mem.marks = s.mem.marks) :
    readByte kind a s = .ok v (setBus v (addTGated (delay t.cfg kind (resolve s a).1) t)) := by
  have hd : sameMap s (setDirection true false s) := sameMap_of_mem rfl rfl
  have hmark' : ∀ n, markedFor (·.onRead) (canonOf (resolve s a).1 (resolve s a).2) (addTGated n t) = false :=
    fun n => by simpa [markedFor, hm] using hmark
  simp only [readByte, hd.resolve, checkStore, setDirection_cfg, hin, if_true, andThen_ok, hvalue, readBreak, hmark',
    Bool.false_eq_true, if_false]

/-- A byte access returns `v` and leaves the memory context `mem` and the output stream `log`; no register, device or
parameter changes. -/
def ReadsAs (kind : AccessKind) (a : Word) (s : State) (v : Byte) (mem : MemCtx) (log : List LogLine) : Prop :=
  ∃ t, readByte kind a s = .ok v t ∧ t.mem = mem ∧ t.log = log ∧ t.regs = s.regs ∧ t.pio = s.pio ∧ t.cfg = s.cfg ∧
    t.ctl.bus = v

theorem ReadsAs.of_value {s t : State} {kind : AccessKind} {a : Word} {v : Byte}
    (hin : inStore s.cfg (resolve s a).1 (resolve s a).2 = true)
    (hmark : markedFor (·.onRead) (canonOf (resolve s a).1 (resolve s a).2) s = false)
    (hvalue : readValue a (setDirection true false s) = .ok v t)
    (hkept : t.mem.marks = s.mem.marks ∧ t.regs = s.regs ∧ t.pio = s.pio ∧ t.cfg = s.cfg) :
    ReadsAs kind a s v t.mem t.log := by
  obtain ⟨hmarks, hregs, hpio, hcfg⟩ := hkept
  exact ⟨_, readByte_of_value hin hmark hvalue hmarks, by simp, by simp, by simp [hregs], by simp [hpio],
    by simp [hcfg], rfl⟩

/-- The identification byte at an offset of a page in AUTOSELECT, where there is one (20_memory R123). -/
def autoselectId (c : Config) (o : Nat) : Option Byte :=
  match o with
  | 0 => some 0x01
  | 2 => some c.autoselectId2
  | 4 => some c.autoselectId4
  | _ => none

theorem autoselectId_eq_none {o : Nat} (h0 : o ≠ 0) (h2 : o ≠ 2) (h4 : o ≠ 4) (c : Config) : autoselectId c o = none := by
  unfold autoselectId
  split
  exacts [absurd rfl h0, absurd rfl h2, absurd rfl h4, rfl]

theorem flashRead_of_id {s : State} {a : Word} {v : Byte} (hx : s.mem.flashState = .autoselect)
    (hid : autoselectId s.cfg (offsetOf a) = some v) : flashRead a s = .ok v s := by
  unfold autoselectId at hid
  split at hid <;> cases hid
  case h_1 ho | h_2 ho | h_3 ho => simp [flashRead, hx, ho]

/-- Where there is no identification byte, a read in AUTOSELECT recovers and takes the stored byte (20_memory R124). -/
theorem flashRead_of_no_id {s : State} {a : Word} (hx : s.mem.flashState = .autoselect)
    (hid : autoselectId s.cfg (offsetOf a) = none) (hin : inStore s.cfg false (flashAddr s a) = true)
    (hhook : s.cfg.hooks.invalidFlash = none) : flashRead a s =
      .ok (storeGet s false (flashAddr s a)) (setFlashState .read (logLine (.event (.invalidFlash a 0)) s)) := by
  have hstored := flashStored_of_inStore (s := setFlashState .read (logLine (.event (.invalidFlash a 0)) s)) hin
  unfold autoselectId at hid
  split at hid <;> cases hid
  case h_4 h0 h2 h4 =>
    simp only [flashRead, hx]
    rw [recover_unhooked hhook, andThen_ok, hstored]
    rfl

/-- Settles O60: the value of the read is that of the decoder, case by case of its state and the offset. -/
theorem flashReads : Obligations.FlashReads := by
  intro s a kind hout hslot hin hmark o stored reads
  have hin' : inStore s.cfg false (flashAddr s a) = true := by rwa [resolve_flashSlot hout hslot] at hin
  have hreads : ∀ {v u}, flashRead a (setDirection true false s) = .ok v u →
      u.mem.marks = s.mem.marks ∧ u.regs = s.regs ∧ u.pio = s.pio ∧ u.cfg = s.cfg → reads v u.mem u.log := fun hread =>
    ReadsAs.of_value hin hmark ((readValue_flash (s := setDirection true false s) hout hslot hin').trans hread)
  have hid : ∀ {v}, s.mem.flashState = .autoselect → autoselectId s.cfg o = some v → reads v s.mem s.log :=
    fun hx h => hreads (u := setDirection true false s) (flashRead_of_id hx h) ⟨rfl, rfl, rfl, rfl⟩
  refine ⟨fun hx => ?_, fun hx => ⟨fun ho => hid hx (by rw [ho]; rfl), fun ho => hid hx (by rw [ho]; rfl),
    fun ho => hid hx (by rw [ho]; rfl), fun h0 h2 h4 hhook => ?_⟩⟩
  · exact hreads (flashRead_of_ne_autoselect (s := setDirection true false s) hin' hx) ⟨rfl, rfl, rfl, rfl⟩
  · have hno := autoselectId_eq_none h0 h2 h4 s.cfg
    exact hreads (flashRead_of_no_id (s := setDirection true false s) hx hno hin' hhook) ⟨rfl, rfl, rfl, rfl⟩

/-- Settles O39: the three writes are a path of the sequencer's table, and the read is the decoder's at offset 0. -/
theorem autoselectSequence : Obligations.AutoselectSequence := by
  refine ⟨fun s a b c hread ha hb hc hA hB hC => ?_, fun s a hx ho hout hslot hin hmark => ?_⟩
  · have hpath : sequencerPath s.cfg.flashVersion .read [(a, 0xAA), (b, 0x55), (c, 0x90)] = some .autoselect := by
      simp [sequencerPath, movesOnly, flashTable, hA, hB, hC]
    exact writeAll_sequencerPath (by simp [ha, hb, hc]) (.refl hread) hpath
  · obtain ⟨-, hauto⟩ := flashReads s a .read hout hslot hin hmark
    obtain ⟨t, hread, hmem, -, -, -, hcfg, -⟩ := (hauto hx).1 ho
    exact ⟨t, hread, hmem, hcfg⟩

/-! ## Which instructions change memory -/

/-- Without an agent of unknown behaviour, both stores and the bank table stay as they are. -/
def KeepsMemory (s t : State) : Prop :=
  tame s = true → (t.mem.ram = s.mem.ram ∧ t.mem.flash = s.mem.flash ∧ t.mem.normal = s.mem.normal) ∧ tame t = true

theorem KeepsMemory.refl (s : State) : KeepsMemory s s := fun h => ⟨⟨rfl, rfl, rfl⟩, h⟩

theorem KeepsMemory.trans {s t u : State} (h : KeepsMemory s t) (h' : KeepsMemory t u) : KeepsMemory s u := fun hs =>
  have ⟨⟨hram, hflash, hnormal⟩, ht⟩ := h hs
  have ⟨⟨hram', hflash', hnormal'⟩, hu⟩ := h' ht
  ⟨⟨hram'.trans hram, hflash'.trans hflash, hnormal'.trans hnormal⟩, hu⟩

/-- A primitive change that may not write memory changes a store or a bank only by an agent of unknown behaviour. -/
theorem KeepsMemory.touch {io : Bool} {s t : State} (h : Touch io false s t) : KeepsMemory s t := by
  intro hs
  refine ⟨?_, h.tame.trans hs⟩
  cases h with
  | store k p v hw => cases hw
  | fill a n v hw => cases hw
  | agent t x _ htame => rw [hs] at htame; cases htame
  | hook t xs htame => rw [hs] at htame; cases htame
  | _ => exact ⟨rfl, rfl, rfl⟩

theorem KeepsMemory.leads {io : Bool} {α : Type} {s : State} {x : Res α} (h : Leads (Touches io false) s x) :
    Leads KeepsMemory s x := fun v t e => touches_closed KeepsMemory.refl KeepsMemory.trans KeepsMemory.touch (h v t e)

theorem KeepsMemory.allows : Allows KeepsMemory false where
  refl := KeepsMemory.refl
  trans := KeepsMemory.trans
  regs s _ _ := KeepsMemory.refl s
  time s _ := KeepsMemory.refl s
  free s := KeepsMemory.refl s
  read a s := KeepsMemory.leads (io := true) (readByte_leads .read a s)
  write h := by cases h
  portIn p s := KeepsMemory.leads (portIn_leads p s)
  portOut p v s := KeepsMemory.leads (portOut_leads p v s)

theorem KeepsMemory.returnFromInterrupt (s : State) : Leads KeepsMemory s (returnFromInterrupt s) :=
  (KeepsMemory.allows.returnTo s).andThen KeepsMemory.allows fun _ t =>
    Leads.ok (show KeepsMemory t (restoreIff t) from KeepsMemory.refl t) _

/-- An instruction that is not ordinary writes registers and flags of the execution state, and reads at most a return
address. -/
theorem KeepsMemory.exec_special {i : Instr} (hi : ordinary i = false) (s : State) : Ends KeepsMemory s (exec i s) := by
  cases i
  case reti | retn | retnCopy => exact Leads.finish KeepsMemory.allows (KeepsMemory.returnFromInterrupt s) _
  case ldIA | ldRegRA | ei | di | im0 | im1 | im2 | im0Copy | im1Copy | im2Copy | exAfAf | exx | halt | prefixDd |
    prefixFd | prefixEd =>
    intro t h
    cases h
    exact KeepsMemory.refl s
  all_goals cases hi

theorem KeepsMemory.exec {i : Instr} (hi : storesMemory i = false) (s : State) : Ends KeepsMemory s (exec i s) := by
  cases hord : ordinary i with
  | true => exact KeepsMemory.allows.exec hord (fun hw => by rw [hi] at hw; cases hw) s
  | false => exact KeepsMemory.exec_special hord s

/-- Settles O58: an instruction that does not store leads along changes that keep memory. -/
theorem onlyStoresChangeMemory : Obligations.OnlyStoresChangeMemory := fun _ s t hs hi h =>
  (KeepsMemory.exec hi s t h hs).1

end Sys2Proof.Machine
end

section
/-! PROOFS of the family 30_encoding: the decoder and the encoder, and the fetch and the step that run them. -/

namespace Sys2Proof

/-! ## The fields of an opcode byte -/

@[simp] theorem fieldX_append (x : BitVec 2) (y z : BitVec 3) : fieldX (x ++ y ++ z) = x := by
  decide +revert

@[simp] theorem fieldY_append (x : BitVec 2) (y z : BitVec 3) : fieldY (x ++ y ++ z) = y := by
  decide +revert

@[simp] theorem fieldZ_append (x : BitVec 2) (y z : BitVec 3) : fieldZ (x ++ y ++ z) = z := by
  decide +revert

@[simp] theorem reg8Of_code (r : Reg8) : reg8Of r.code = some r := by
  cases r <;> rfl

@[simp] theorem reg8Of_six : reg8Of 6#3 = none := rfl

theorem bitVec3_cases (y : BitVec 3) : y = 0 ∨ y = 1 ∨ y = 2 ∨ y = 3 ∨ y = 4 ∨ y = 5 ∨ y = 6 ∨ y = 7 := by
  decide +revert

/-- The byte, DD or FD, that selects an index register (30_encoding R157). -/
def Index.prefixByte (x : Index) : Byte := x.pick 0xDD 0xFD

/-! ## Decoding an encoding -/

/-- Decoding gives the instruction back, whatever bytes come after its encoding. -/
def RoundTrips (i : Instr) : Prop := ∀ rest : List Byte,
  decode (encode i ++ rest) = .ok { instr := i, prefixes := i.hasIndexPrefix.toNat, rest := rest }

theorem RoundTrips.of_cb {i : Instr} {op : Byte} (he : encode i = [0xCB, op]) (h : cbEntry op = i) : RoundTrips i := by
  intro rest
  rw [Instr.hasIndexPrefix, he, ← h]
  rfl

theorem RoundTrips.of_xycb {i : Instr} (x : Index) {d op : Byte} (he : encode i = [x.prefixByte, 0xCB, d, op])
    (h : xycbEntry x d op = i) : RoundTrips i := by
  intro rest
  rw [Instr.hasIndexPrefix, he, ← h]
  cases x <;> rfl

theorem RoundTrips.of_ed {i : Instr} {op : Byte} (he : encode i = [0xED, op]) (h : edEntry op = .done i) :
    RoundTrips i := by
  intro rest
  rw [Instr.hasIndexPrefix, he]
  show (edEntry op).takeFrom 0 rest = _
  rw [h]
  rfl

/-- A word operand is put together from the two bytes its encoding takes it apart into. -/
theorem decoded_join (k : Word → Instr) (nn : Word) (n : Nat) (rest : List Byte) :
    (Except.ok ⟨k (join (hi nn) (lo nn)), n, rest⟩ : Except Reject Decoded) = .ok ⟨k nn, n, rest⟩ := by
  rw [join_hi_lo]

theorem edEntry_low (x : BitVec 6) : edEntry (0b00#2 ++ x) = .done (.nopEdLow x) := by
  have hx : fieldX (0b00#2 ++ x) = 0 := by decide +revert
  have hlow : (0b00#2 ++ x).extractLsb' 0 6 = x := by decide +revert
  rw [edEntry, hx, hlow]
  rfl

theorem edEntry_high (x : BitVec 6) : edEntry (0b11#2 ++ x) = .done (.nopEdHigh x) := by
  have hx : fieldX (0b11#2 ++ x) = 3 := by decide +revert
  have hlow : (0b11#2 ++ x).extractLsb' 0 6 = x := by decide +revert
  rw [edEntry, hx, hlow]
  rfl

theorem edEntry_two {op : Byte} {i : Instr} (hx : fieldX op = 2) (h : ed2 op = i) : edEntry op = .done i := by
  rw [edEntry, hx, h]
  rfl

theorem ed2_mid (x : BitVec 5) : fieldX (0b100#3 ++ x) = 2 ∧ ed2 (0b100#3 ++ x) = .nopEdMid x := by decide +revert

theorem ed2_block (y x : BitVec 2) :
    fieldX (0b101#3 ++ y ++ 0b1#1 ++ x) = 2 ∧ ed2 (0b101#3 ++ y ++ 0b1#1 ++ x) = .nopEdBlock y x := by decide +revert

/-- Each instruction round-trips: a form with register fields case by case of the register, the CB tables and the
no-operations of the ED table by their fields. -/
theorem roundTrips {i : Instr} (hw : WellFormed i = true) (hp : i.isPrefixByte = false) : RoundTrips i := by
  cases i
  case rlcR r | rrcR r | rlR r | rrR r | slaR r | sraR r | sllR r | srlR r => cases r <;> exact .of_cb rfl rfl
  case bitBR b r | resBR b r | setBR b r => exact .of_cb rfl (by simp [cbEntry])
  case bitBMemHl b | resBMemHl b | setBMemHl b => exact .of_cb rfl (by simp [cbEntry])
  case rlcMemIxR d r | rrcMemIxR d r | rlMemIxR d r | rrMemIxR d r | slaMemIxR d r | sraMemIxR d r | sllMemIxR d r
    | srlMemIxR d r => cases r <;> exact .of_xycb .ix rfl rfl
  case rlcMemIyR d r | rrcMemIyR d r | rlMemIyR d r | rrMemIyR d r | slaMemIyR d r | sraMemIyR d r | sllMemIyR d r
    | srlMemIyR d r => cases r <;> exact .of_xycb .iy rfl rfl
  case bitBMemIx b d | resBMemIx b d | setBMemIx b d => exact .of_xycb .ix rfl (by simp [xycbEntry, Index.pick])
  case bitBMemIy b d | resBMemIy b d | setBMemIy b d => exact .of_xycb .iy rfl (by simp [xycbEntry, Index.pick])
  case bitBMemIxCopy b d r | resBMemIxR b d r | setBMemIxR b d r =>
    exact .of_xycb .ix rfl (by simp [xycbEntry, Index.pick])
  case bitBMemIyCopy b d r | resBMemIyR b d r | setBMemIyR b d r =>
    exact .of_xycb .iy rfl (by simp [xycbEntry, Index.pick])
  case prefixCb | prefixXyCb | prefixDd | prefixFd | prefixEd => cases hp
  case ldDdNn p nn =>
    cases p with
    | hl => cases hw
    | bc | de | sp => exact fun _ => decoded_join (Instr.ldDdNn _) nn _ _
  case ldMemNnDd nn p => cases p <;> exact fun _ => decoded_join (Instr.ldMemNnDd · _) nn _ _
  case ldDdMemNn p nn => cases p <;> exact fun _ => decoded_join (Instr.ldDdMemNn _) nn _ _
  case ldHlNn | ldIxNn | ldIyNn | ldMemNnHl | ldMemNnIx | ldMemNnIy | ldMemNnA | ldHlMemNn | ldIxMemNn | ldIyMemNn
    | ldAMemNn | jpNn | callNn => exact fun _ => decoded_join _ _ _ _
  case jpCcNn cc nn | callCcNn cc nn => cases cc <;> exact fun _ => decoded_join _ _ _ _
  case retCc cc => cases cc <;> exact fun _ => rfl
  case addHlSs p | addIxPp p | addIyRr p | adcHlSs p | sbcHlSs p => cases p <;> exact fun _ => rfl
  case incSs p | decSs p | pushQq p | popQq p =>
    cases p with
    | hl => cases hw
    | _ => exact fun _ => rfl
  case ldIxHalfP k p | ldIyHalfP k p => cases k <;> cases p <;> exact fun _ => rfl
  case ldPIxHalf p k | ldPIyHalf p k =>
    cases p with
    | h | l => cases hw
    | _ => cases k <;> exact fun _ => rfl
  case ldRR r s => cases r <;> cases s <;> exact fun _ => rfl
  case incR r | decR r | ldRN r _ | ldRMemHl r | ldRMemIx r _ | ldRMemIy r _ | ldMemHlR r | ldMemIxR _ r | ldMemIyR _ r
    | addAR r | adcAR r | subAR r | sbcAR r | andAR r | xorAR r | orAR r | cpAR r | inRC r | outCR r =>
    cases r <;> exact fun _ => rfl
  case nopEdLow x => exact .of_ed rfl (edEntry_low x)
  case nopEdHigh x => exact .of_ed rfl (edEntry_high x)
  case nopEdMid x => exact .of_ed rfl (edEntry_two (ed2_mid x).1 (ed2_mid x).2)
  case nopEdBlock y x => exact .of_ed rfl (edEntry_two (ed2_block y x).1 (ed2_block y x).2)
  case nopEd7 x =>
    have hx : x = 0 ∨ x = 1 := by decide +revert
    rcases hx with rfl | rfl <;> exact .of_ed rfl rfl
  case rst t => rcases bitVec3_cases t with rfl | rfl | rfl | rfl | rfl | rfl | rfl | rfl <;> exact fun _ => rfl
  case negCopy y =>
    have hy : y = 1 ∨ y = 2 ∨ y = 3 ∨ y = 4 ∨ y = 5 ∨ y = 6 ∨ y = 7 := by decide +revert
    rcases hy with rfl | rfl | rfl | rfl | rfl | rfl | rfl <;> exact .of_ed rfl rfl
  case retnCopy y =>
    have hy : y = 2 ∨ y = 3 ∨ y = 4 ∨ y = 5 ∨ y = 6 ∨ y = 7 := by decide +revert
    rcases hy with rfl | rfl | rfl | rfl | rfl | rfl <;> exact .of_ed rfl rfl
  case im0Copy y =>
    have hy : y = 1 ∨ y = 4 ∨ y = 5 := by decide +revert
    rcases hy with rfl | rfl | rfl <;> exact .of_ed rfl rfl
  all_goals exact fun _ => rfl

/-- Settles O1: each row of the tables round-trips. -/
theorem decodeEncode : Obligations.DecodeEncode := fun _ rest hw hp => roundTrips hw hp rest

/-! ## What the tables select

The regular tables go by their register fields, the irregular ones opcode by opcode. -/

/-- The bytes encode the instruction, which is well-formed and not one of the prefixes alone. -/
def IsEncoding (i : Instr) (bytes : List Byte) : Prop :=
  WellFormed i = true ∧ i.isPrefixByte = false ∧ encode i = bytes

/-- The bytes select the instruction where the last of the index prefixes before them, if any, is `o`: they encode it
together with that byte, or without it, which is then redundant (30_encoding R175). -/
def Selects (o : Option Index) (bytes : List Byte) (i : Instr) : Prop :=
  IsEncoding i bytes ∨ ∃ x, o = some x ∧ IsEncoding i (x.prefixByte :: bytes)

/-- The instruction that an entry gives when `l` and `h` are the next bytes. -/
def Entry.instr (l h : Byte) : Entry → Instr
  | .done i => i
  | .take1 k => k l
  | .take2 k => k l h

/-- The operand bytes that an entry takes when `l` and `h` are the next bytes; two of them as the halves of a word. -/
def Entry.operands (l h : Byte) : Entry → List Byte
  | .done _ => []
  | .take1 _ => [l]
  | .take2 _ => [lo (join h l), hi (join h l)]

theorem Entry.operands_take2 (k : Byte → Byte → Instr) (l h : Byte) : (Entry.take2 k).operands l h = [l, h] := by
  simp [Entry.operands]

/-- With any operand bytes, the entry that the bytes `head` lead to gives the instruction that they encode. -/
def Entry.Encodes (head : List Byte) (e : Entry) : Prop := ∀ l h, IsEncoding (e.instr l h) (head ++ e.operands l h)

/-- The same where the last of the index prefixes before the bytes, if any, is `o`. -/
def Entry.Selects (o : Option Index) (head : List Byte) (e : Entry) : Prop :=
  ∀ l h, Sys2Proof.Selects o (head ++ e.operands l h) (e.instr l h)

theorem Entry.Encodes.selects {head : List Byte} {e : Entry} (h : e.Encodes head) (o : Option Index) :
    e.Selects o head := fun l u => .inl (h l u)

theorem exists_fields (op : Byte) : ∃ y z : BitVec 3, op = fieldX op ++ y ++ z :=
  ⟨fieldY op, fieldZ op, by decide +revert⟩

theorem eq_ofNat_of_toNat {w n : Nat} {v : BitVec w} (h : v.toNat = n) : v = BitVec.ofNat w n := by
  rw [← h, BitVec.ofNat_toNat, BitVec.setWidth_eq]

/-- A register field names a register or is 6 (30_encoding R165). -/
theorem reg8_cases (z : BitVec 3) : (∃ r : Reg8, z = r.code) ∨ z = 6#3 := by
  rcases bitVec3_cases z with rfl | rfl | rfl | rfl | rfl | rfl | rfl | rfl
  exacts [.inl ⟨.b, rfl⟩, .inl ⟨.c, rfl⟩, .inl ⟨.d, rfl⟩, .inl ⟨.e, rfl⟩, .inl ⟨.h, rfl⟩, .inl ⟨.l, rfl⟩, .inr rfl,
    .inl ⟨.a, rfl⟩]

theorem base0_encodes (y z : BitVec 3) : (base0 (0#2 ++ y ++ z)).Encodes [0#2 ++ y ++ z] := by
  rcases bitVec3_cases z with rfl | rfl | rfl | rfl | rfl | rfl | rfl | rfl <;>
    rcases bitVec3_cases y with rfl | rfl | rfl | rfl | rfl | rfl | rfl | rfl <;>
      exact fun _ _ => ⟨rfl, rfl, rfl⟩

theorem base1_encodes (y z : BitVec 3) : (base1 (1#2 ++ y ++ z)).Encodes [1#2 ++ y ++ z] := by
  rw [base1, fieldY_append, fieldZ_append]
  rcases reg8_cases y with ⟨r, rfl⟩ | rfl <;> rcases reg8_cases z with ⟨s, rfl⟩ | rfl <;>
    simp only [reg8Of_code, reg8Of_six] <;>
      exact fun _ _ => ⟨rfl, rfl, rfl⟩

theorem base2_encodes (y z : BitVec 3) : (base2 (2#2 ++ y ++ z)).Encodes [2#2 ++ y ++ z] := by
  rw [base2, fieldY_append, fieldZ_append]
  rcases reg8_cases z with ⟨r, rfl⟩ | rfl <;> simp only [reg8Of_code, reg8Of_six] <;>
    rcases bitVec3_cases y with rfl | rfl | rfl | rfl | rfl | rfl | rfl | rfl <;>
      exact fun _ _ => ⟨rfl, rfl, rfl⟩

theorem base3_encodes (y z : BitVec 3) (h : routeOf (3#2 ++ y ++ z) = .base) :
    (base3 (3#2 ++ y ++ z)).Encodes [3#2 ++ y ++ z] := by
  have hz : z = 3 ∧ y ≠ 1 ∨ z = 5 ∧ y ≠ 3 ∧ y ≠ 5 ∧ y ≠ 7 ∨ z ≠ 3 ∧ z ≠ 5 := by decide +revert
  rcases hz with ⟨rfl, hy⟩ | ⟨rfl, hy⟩ | hz
  · have hy : y = 0 ∨ y = 2 ∨ y = 3 ∨ y = 4 ∨ y = 5 ∨ y = 6 ∨ y = 7 := by decide +revert
    rcases hy with rfl | rfl | rfl | rfl | rfl | rfl | rfl <;> exact fun _ _ => ⟨rfl, rfl, rfl⟩
  · have hy : y = 0 ∨ y = 1 ∨ y = 2 ∨ y = 4 ∨ y = 6 := by decide +revert
    rcases hy with rfl | rfl | rfl | rfl | rfl <;> exact fun _ _ => ⟨rfl, rfl, rfl⟩
  · have hz : z = 0 ∨ z = 1 ∨ z = 2 ∨ z = 4 ∨ z = 6 ∨ z = 7 := by decide +revert
    rcases hz with rfl | rfl | rfl | rfl | rfl | rfl <;>
      rcases bitVec3_cases y with rfl | rfl | rfl | rfl | rfl | rfl | rfl | rfl <;>
        exact fun _ _ => ⟨rfl, rfl, rfl⟩

theorem indexed0_selects (x : Index) (y z : BitVec 3) :
    (indexed0 x (0#2 ++ y ++ z)).Selects (some x) [0#2 ++ y ++ z] := by
  have hbase := (base0_encodes y z).selects (some x)
  generalize 0#2 ++ y ++ z = op at hbase ⊢
  unfold indexed0
  split
  case h_19 => exact hbase
  case h_18 h =>
    obtain rfl := eq_ofNat_of_toNat h
    cases x <;> exact fun l u => .inr ⟨_, rfl, rfl, rfl, by rw [Entry.operands_take2]; rfl⟩
  all_goals
    rename_i h
    obtain rfl := eq_ofNat_of_toNat h
    cases x <;> exact fun _ _ => .inr ⟨_, rfl, rfl, rfl, rfl⟩

theorem halfOf_some {y : BitVec 3} {k : Half} (h : halfOf y = some k) : y = k.regField := by
  decide +revert

theorem ne_half_of_halfOf {r : Reg8} (h : halfOf r.code = none) : (r != .h && r != .l) = true := by
  cases r
  case h | l => cases h
  all_goals rfl

theorem indexed1_selects (x : Index) (y z : BitVec 3) :
    (indexed1 x (1#2 ++ y ++ z)).Selects (some x) [1#2 ++ y ++ z] := by
  rw [indexed1, fieldY_append, fieldZ_append]
  rcases reg8_cases y with ⟨r, rfl⟩ | rfl <;> rcases reg8_cases z with ⟨s, rfl⟩ | rfl <;>
    simp only [reg8Of_code, reg8Of_six]
  · split
    case h_1 k hk =>
      rw [halfOf_some hk]
      cases x <;> exact fun _ _ => .inr ⟨_, rfl, rfl, rfl, rfl⟩
    case h_2 k hr hk =>
      rw [halfOf_some hk]
      cases x <;> exact fun _ _ => .inr ⟨_, rfl, ne_half_of_halfOf hr, rfl, rfl⟩
    case h_3 => exact fun _ _ => .inl ⟨rfl, rfl, rfl⟩
  · cases x <;> exact fun _ _ => .inr ⟨_, rfl, rfl, rfl, rfl⟩
  · cases x <;> exact fun _ _ => .inr ⟨_, rfl, rfl, rfl, rfl⟩
  · exact fun _ _ => .inl ⟨rfl, rfl, rfl⟩

theorem indexed2_selects (x : Index) (y z : BitVec 3) :
    (indexed2 x (2#2 ++ y ++ z)).Selects (some x) [2#2 ++ y ++ z] := by
  have hbase := (base2_encodes y z).selects (some x)
  rw [indexed2, fieldY_append, fieldZ_append]
  split
  case h_4 => exact hbase
  all_goals
    rename_i h
    obtain rfl := eq_ofNat_of_toNat h
    rcases bitVec3_cases y with rfl | rfl | rfl | rfl | rfl | rfl | rfl | rfl <;> cases x <;>
      exact fun _ _ => .inr ⟨_, rfl, rfl, rfl, rfl⟩

theorem indexed3_selects (x : Index) (y z : BitVec 3)
    (h : routeOf (3#2 ++ y ++ z) = .base) : (indexed3 x (3#2 ++ y ++ z)).Selects (some x) [3#2 ++ y ++ z] := by
  have hbase := (base3_encodes y z h).selects (some x)
  generalize 3#2 ++ y ++ z = op at h hbase ⊢
  unfold indexed3
  split
  case h_7 => exact hbase
  case h_1 hop =>
    obtain rfl := eq_ofNat_of_toNat hop
    cases h
  all_goals
    rename_i hop
    obtain rfl := eq_ofNat_of_toNat hop
    cases x <;> exact fun _ _ => .inr ⟨_, rfl, rfl, rfl, rfl⟩

/-- An opcode byte, by the four tables of 30_encoding R169. -/
theorem table_cases (op : Byte) :
    (∃ y z : BitVec 3, op = 0#2 ++ y ++ z) ∨ (∃ y z : BitVec 3, op = 1#2 ++ y ++ z) ∨
    (∃ y z : BitVec 3, op = 2#2 ++ y ++ z) ∨ ∃ y z : BitVec 3, op = 3#2 ++ y ++ z := by
  obtain ⟨y, z, h⟩ := exists_fields op
  have hx : fieldX op = 0 ∨ fieldX op = 1 ∨ fieldX op = 2 ∨ fieldX op = 3 := by decide +revert
  rcases hx with hx | hx | hx | hx <;> rw [hx] at h
  exacts [.inl ⟨y, z, h⟩, .inr (.inl ⟨y, z, h⟩), .inr (.inr (.inl ⟨y, z, h⟩)), .inr (.inr (.inr ⟨y, z, h⟩))]

theorem baseEntry_selects (p : Pfx) {op : Byte} (h : routeOf op = .base) : (baseEntry p op).Selects p.index [op] := by
  unfold baseEntry
  split
  case h_1 hp =>
    rw [hp, basePlain]
    rcases table_cases op with ⟨y, z, rfl⟩ | ⟨y, z, rfl⟩ | ⟨y, z, rfl⟩ | ⟨y, z, rfl⟩ <;> rw [fieldX_append]
    exacts [(base0_encodes y z).selects none, (base1_encodes y z).selects none, (base2_encodes y z).selects none,
      (base3_encodes y z h).selects none]
  case h_2 x hp =>
    rw [hp, baseIndexed]
    rcases table_cases op with ⟨y, z, rfl⟩ | ⟨y, z, rfl⟩ | ⟨y, z, rfl⟩ | ⟨y, z, rfl⟩ <;> rw [fieldX_append]
    exacts [indexed0_selects x y z, indexed1_selects x y z, indexed2_selects x y z, indexed3_selects x y z h]

theorem rotReg_encodes (y : BitVec 3) (r : Reg8) : IsEncoding (rotReg (rotOf y) r) [0xCB, 0#2 ++ y ++ r.code] := by
  rcases bitVec3_cases y with rfl | rfl | rfl | rfl | rfl | rfl | rfl | rfl <;> exact ⟨rfl, rfl, rfl⟩

theorem rotMem_encodes (y : BitVec 3) : IsEncoding (rotMem (rotOf y)) [0xCB, 0#2 ++ y ++ 6#3] := by
  rcases bitVec3_cases y with rfl | rfl | rfl | rfl | rfl | rfl | rfl | rfl <;> exact ⟨rfl, rfl, rfl⟩

theorem rotIdxReg_encodes (y : BitVec 3) (x : Index) (d : Byte) (r : Reg8) :
    IsEncoding (rotIdxReg (rotOf y) x d r) [x.prefixByte, 0xCB, d, 0#2 ++ y ++ r.code] := by
  rcases bitVec3_cases y with rfl | rfl | rfl | rfl | rfl | rfl | rfl | rfl <;> cases x <;> exact ⟨rfl, rfl, rfl⟩

theorem rotIdx_encodes (y : BitVec 3) (x : Index) (d : Byte) :
    IsEncoding (rotIdx (rotOf y) x d) [x.prefixByte, 0xCB, d, 0#2 ++ y ++ 6#3] := by
  rcases bitVec3_cases y with rfl | rfl | rfl | rfl | rfl | rfl | rfl | rfl <;> cases x <;> exact ⟨rfl, rfl, rfl⟩

theorem cbEntry_encodes (op : Byte) : IsEncoding (cbEntry op) [0xCB, op] := by
  rcases table_cases op with ⟨y, z, rfl⟩ | ⟨y, z, rfl⟩ | ⟨y, z, rfl⟩ | ⟨y, z, rfl⟩ <;>
    rw [cbEntry, fieldX_append, fieldY_append, fieldZ_append] <;>
      rcases reg8_cases z with ⟨r, rfl⟩ | rfl <;> simp only [reg8Of_code, reg8Of_six]
  case inl.inl => exact rotReg_encodes y r
  case inl.inr => exact rotMem_encodes y
  all_goals exact ⟨rfl, rfl, rfl⟩

theorem xycbEntry_encodes (x : Index) (d op : Byte) : IsEncoding (xycbEntry x d op) [x.prefixByte, 0xCB, d, op] := by
  rcases table_cases op with ⟨y, z, rfl⟩ | ⟨y, z, rfl⟩ | ⟨y, z, rfl⟩ | ⟨y, z, rfl⟩ <;>
    rw [xycbEntry, fieldX_append, fieldY_append, fieldZ_append] <;>
      rcases reg8_cases z with ⟨r, rfl⟩ | rfl <;> simp only [reg8Of_code, reg8Of_six]
  case inl.inl => exact rotIdxReg_encodes y x d r
  case inl.inr => exact rotIdx_encodes y x d
  all_goals cases x <;> exact ⟨rfl, rfl, rfl⟩

theorem ed1_encodes (y z : BitVec 3) : (ed1 (1#2 ++ y ++ z)).Encodes [0xED, 1#2 ++ y ++ z] := by
  rcases bitVec3_cases z with rfl | rfl | rfl | rfl | rfl | rfl | rfl | rfl <;>
    rcases bitVec3_cases y with rfl | rfl | rfl | rfl | rfl | rfl | rfl | rfl <;>
      exact fun _ _ => ⟨rfl, rfl, rfl⟩

theorem ed2_encodes (y z : BitVec 3) : IsEncoding (ed2 (2#2 ++ y ++ z)) [0xED, 2#2 ++ y ++ z] := by
  rcases bitVec3_cases z with rfl | rfl | rfl | rfl | rfl | rfl | rfl | rfl <;>
    rcases bitVec3_cases y with rfl | rfl | rfl | rfl | rfl | rfl | rfl | rfl <;>
      exact ⟨rfl, rfl, rfl⟩

theorem edEntry_encodes (op : Byte) : (edEntry op).Encodes [0xED, op] := by
  rcases table_cases op with ⟨y, z, rfl⟩ | ⟨y, z, rfl⟩ | ⟨y, z, rfl⟩ | ⟨y, z, rfl⟩ <;>
    rw [edEntry, fieldX_append]
  · have hlow : 0b00#2 ++ (0#2 ++ y ++ z).extractLsb' 0 6 = 0#2 ++ y ++ z := by decide +revert
    exact fun _ _ => ⟨rfl, rfl, by simp [Entry.instr, encode, hlow, Entry.operands]⟩
  · exact ed1_encodes y z
  · exact fun _ _ => ed2_encodes y z
  · have hlow : 0b11#2 ++ (3#2 ++ y ++ z).extractLsb' 0 6 = 3#2 ++ y ++ z := by decide +revert
    exact fun _ _ => ⟨rfl, rfl, congrArg (fun b => [0xED, b]) hlow⟩

/-! ## What the decoder reads -/

theorem Entry.takeFrom_ok {e : Entry} {n : Nat} {bytes : List Byte} {d : Decoded} (h : e.takeFrom n bytes = .ok d) :
    ∃ l u, d.instr = e.instr l u ∧ bytes = e.operands l u ++ d.rest ∧ d.prefixes = n := by
  unfold takeFrom at h
  split at h
  · cases h
    exact ⟨0, 0, rfl, rfl, rfl⟩
  · split at h <;> cases h
    exact ⟨_, 0, rfl, rfl, rfl⟩
  · split at h <;> cases h
    exact ⟨_, _, rfl, by simp [operands], rfl⟩

/-- An opcode byte that is routed as an index byte selects one of the two index registers. -/
theorem index_of_route {op : Byte} {p : Pfx} (h : routeOf op = .index p) :
    ∃ x, p.index = some x ∧ op = x.prefixByte := by
  unfold routeOf at h
  split at h <;> cases h
  case h_2 hop => exact ⟨.ix, rfl, eq_ofNat_of_toNat hop⟩
  case h_4 hop => exact ⟨.iy, rfl, eq_ofNat_of_toNat hop⟩

theorem routeOf_ed {op : Byte} (h : routeOf op = .ed) : op = 0xED := by
  unfold routeOf at h
  split at h <;> cases h
  case h_3 hop => exact eq_ofNat_of_toNat hop

theorem routeOf_cb {op : Byte} (h : routeOf op = .cb) : op = 0xCB := by
  unfold routeOf at h
  split at h <;> cases h
  case h_1 hop => exact eq_ofNat_of_toNat hop

theorem routeOf_prefixByte (x : Index) : ∃ p, routeOf x.prefixByte = .index p ∧ p.index = some x := by
  cases x
  exacts [⟨_, rfl, rfl⟩, ⟨_, rfl, rfl⟩]

/-- The opcode byte begins an instruction: it is none of the index prefixes. -/
def OpensInstr (op : Byte) : Prop := ∀ p, routeOf op ≠ .index p

theorem decodeFrom_index {p q : Pfx} {n : Nat} {op : Byte} {rest : List Byte} (h : routeOf op = .index q) :
    decodeFrom p n (op :: rest) = decodeFrom q (n + 1) rest := by
  simp only [decodeFrom, h]

theorem decodeFrom_opens {p : Pfx} {n : Nat} {op : Byte} {rest : List Byte} {d : Decoded} (hop : OpensInstr op)
    (h : decodeFrom p n (op :: rest) = .ok d) :
    ∃ tail, rest = tail ++ d.rest ∧ d.prefixes = n ∧ Selects p.index (op :: tail) d.instr := by
  unfold decodeFrom at h
  split at h
  case h_1 q hq => exact absurd hq (hop q)
  case h_2 hr =>
    obtain rfl := routeOf_ed hr
    cases rest with
    | nil => cases h
    | cons op2 rest =>
      obtain ⟨l, u, hinstr, hbytes, hcount⟩ := Entry.takeFrom_ok h
      exact ⟨op2 :: (edEntry op2).operands l u, by rw [hbytes]; rfl, hcount, hinstr ▸ .inl (edEntry_encodes op2 l u)⟩
  case h_3 hr =>
    obtain rfl := routeOf_cb hr
    split at h
    · cases rest with
      | nil => cases h
      | cons op2 rest =>
        cases h
        exact ⟨[op2], rfl, rfl, .inl (cbEntry_encodes op2)⟩
    · split at h
      · cases h
        exact ⟨[_, _], rfl, rfl, .inr ⟨_, ‹_›, xycbEntry_encodes _ _ _⟩⟩
      · cases h
  case h_4 hr =>
    obtain ⟨l, u, hinstr, hbytes, hcount⟩ := Entry.takeFrom_ok h
    exact ⟨_, hbytes, hcount, hinstr ▸ baseEntry_selects p hr l u⟩

/-- What the decoder reads: a run of index prefixes, and bytes that select the instruction after the last of them. -/
theorem decodeFrom_ok {p : Pfx} {n : Nat} {bytes : List Byte} {d : Decoded} (h : decodeFrom p n bytes = .ok d) :
    ∃ (ps : List Index) (op : Byte) (tail : List Byte), OpensInstr op ∧
      bytes = ps.map Index.prefixByte ++ (op :: tail) ++ d.rest ∧ d.prefixes = n + ps.length ∧
      Selects (ps.getLast?.or p.index) (op :: tail) d.instr := by
  induction bytes generalizing p n with
  | nil => cases h
  | cons op rest ih =>
    by_cases hop : OpensInstr op
    · obtain ⟨tail, hb, hn, hs⟩ := decodeFrom_opens hop h
      exact ⟨[], op, tail, hop, by rw [hb]; rfl, hn, hs⟩
    · obtain ⟨q, hq⟩ : ∃ q, routeOf op = .index q := by simpa [OpensInstr] using hop
      obtain ⟨x, hx, rfl⟩ := index_of_route hq
      rw [decodeFrom_index hq] at h
      obtain ⟨ps, op', tail, hop', rfl, hn, hs⟩ := ih h
      refine ⟨x :: ps, op', tail, hop', by simp, by simp; omega, ?_⟩
      rw [List.getLast?_cons]
      rw [hx] at hs
      cases hl : ps.getLast? <;> rw [hl] at hs <;> exact hs

theorem hasIndexPrefix_eq_false {i : Instr} {op : Byte} {tail : List Byte} (hop : OpensInstr op)
    (h : IsEncoding i (op :: tail)) : i.hasIndexPrefix = false := by
  obtain ⟨-, -, he⟩ := h
  rw [Instr.hasIndexPrefix, he]
  cases tail with
  | nil => rfl
  | cons b tail =>
    have hne : ∀ x : Index, op ≠ x.prefixByte := fun x e =>
      have ⟨p, hp, _⟩ := routeOf_prefixByte x
      hop p (e ▸ hp)
    simpa using ⟨hne .ix, hne .iy⟩

theorem hasIndexPrefix_eq_true {i : Instr} {x : Index} {op : Byte} {tail : List Byte}
    (h : IsEncoding i (x.prefixByte :: op :: tail)) : i.hasIndexPrefix = true := by
  obtain ⟨-, -, he⟩ := h
  rw [Instr.hasIndexPrefix, he]
  cases x <;> rfl

theorem mem_prefixBytes {ps : List Index} {b : Byte} (h : b ∈ ps.map Index.prefixByte) : b = 0xDD ∨ b = 0xFD := by
  obtain ⟨x, -, rfl⟩ := List.mem_map.mp h
  cases x
  exacts [.inl rfl, .inr rfl]

/-- Settles O2: the run of prefixes is redundant, or all of it but the last one, which the encoding begins with. -/
theorem encodeDecode : Obligations.EncodeDecode := by
  intro bytes d h
  obtain ⟨ps, op, tail, hop, hbytes, hcount, henc | ⟨x, hlast, henc⟩⟩ := decodeFrom_ok h
  · have ⟨hwf, hbyte, he⟩ := henc
    refine ⟨hwf, hbyte, ps.map Index.prefixByte, fun b => mem_prefixBytes, ?_, by rw [he, hbytes]⟩
    simp [redundantPrefixes, hasIndexPrefix_eq_false hop henc, hcount]
  · have ⟨hwf, hbyte, he⟩ := henc
    have hps : ps.dropLast ++ [x] = ps := List.dropLast_append_getLast? x (by simpa [Pfx.index] using hlast)
    refine ⟨hwf, hbyte, ps.dropLast.map Index.prefixByte, fun b => mem_prefixBytes, ?_, ?_⟩
    · simp [redundantPrefixes, hasIndexPrefix_eq_true henc, hcount]
    · rw [he, hbytes, ← hps]
      simp

/-! ## Every string decodes -/

theorem Entry.takeFrom_total (e : Entry) (n : Nat) (b c : Byte) (rest : List Byte) :
    ∃ d, e.takeFrom n (b :: c :: rest) = .ok d := by
  cases e <;> exact ⟨_, rfl⟩

theorem decodeFrom_total {op : Byte} (hop : OpensInstr op) (p : Pfx) (n : Nat) (b1 b2 b3 : Byte) (rest : List Byte) :
    ∃ d, decodeFrom p n (op :: b1 :: b2 :: b3 :: rest) = .ok d := by
  unfold decodeFrom
  split
  case h_1 q hq => exact absurd hq (hop q)
  case h_2 => exact Entry.takeFrom_total _ n b2 b3 rest
  case h_3 => split <;> exact ⟨_, rfl⟩
  case h_4 => exact Entry.takeFrom_total _ n b1 b2 (b3 :: rest)

/-- A run of index prefixes only changes `pfx` and the count. -/
theorem decodeFrom_run {ps : List Byte} (h : ∀ b ∈ ps, b = 0xDD ∨ b = 0xFD) (p : Pfx) (n : Nat)
    (bytes : List Byte) : ∃ q m, decodeFrom p n (ps ++ bytes) = decodeFrom q m bytes := by
  induction ps generalizing p n with
  | nil => exact ⟨p, n, rfl⟩
  | cons b ps ih =>
    obtain ⟨hb, hps⟩ := List.forall_mem_cons.mp h
    obtain ⟨q, hq⟩ : ∃ q, routeOf b = .index q := by
      rcases hb with rfl | rfl <;> exact ⟨_, rfl⟩
    obtain ⟨r, m, hr⟩ := ih hps q (n + 1)
    exact ⟨r, m, (decodeFrom_index hq).trans hr⟩

theorem opensInstr_of_ne {op : Byte} (hdd : op ≠ 0xDD) (hfd : op ≠ 0xFD) : OpensInstr op := by
  intro p hp
  obtain ⟨x, -, hx⟩ := index_of_route hp
  cases x
  exacts [hdd hx, hfd hx]

/-- Settles O3: three bytes after the opcode byte are enough for every entry, and what decodes is well-formed (O2). -/
theorem everyStringDecodes : Obligations.EveryStringDecodes := by
  intro ps op b1 b2 b3 rest hps hdd hfd
  obtain ⟨p, n, hrun⟩ := decodeFrom_run hps .none 0 (op :: b1 :: b2 :: b3 :: rest)
  obtain ⟨d, hd⟩ := decodeFrom_total (opensInstr_of_ne hdd hfd) p n b1 b2 b3 rest
  have hdecode : decode (ps ++ op :: b1 :: b2 :: b3 :: rest) = .ok d := hrun.trans hd
  obtain ⟨hwf, hbyte, -⟩ := encodeDecode _ d hdecode
  exact ⟨d, hdecode, hwf, hbyte⟩

namespace Machine

/-! ## The fetch of an instruction -/

theorem refreshBy_refreshBy (m n : Nat) (r : Byte) : refreshBy m (refreshBy n r) = refreshBy (n + m) r := by
  have h7 : ∀ (k : BitVec 1) (v : BitVec 7), (k ++ v).extractLsb' 7 1 = k ∧ (k ++ v).extractLsb' 0 7 = v := by decide
  rw [refreshBy, refreshBy, (h7 _ _).1, (h7 _ _).2, BitVec.add_assoc, ← BitVec.ofNat_add]
  rfl

/-- A fetch of `b` at the address is plain: the byte stands there, execution is allowed, no boot unmap is due, and
nothing interferes with the read. -/
structure PlainAt (s : State) (a : Word) (b : Byte) : Prop where
  byte : byteAt s a = b
  read : readable s a = true
  exec : (slotOf s a).noExec = false
  rule : s.cfg.execRule = .default
  mapped : bootUnmapDue a s = false

theorem PlainAt.congr {s t : State} {a : Word} {b : Byte} (h : PlainAt s a b) (hm : t.mem = s.mem)
    (hc : t.cfg = s.cfg) : PlainAt t a b := by
  have hsame : sameMap s t := sameMap_of_mem hm hc
  refine ⟨?_, (hsame.readable a).trans h.read, (congrArg _ (hsame.slotOf a)).trans h.exec, hc ▸ h.rule, ?_⟩
  · rw [byteAt, hsame.resolve, storeGet_congr hm]
    exact h.byte
  · have hdue := h.mapped
    rwa [bootUnmapDue, ← hm, ← hc] at hdue

theorem fetchable_gate {s : State} {bytes : List Byte} (h : fetchable s bytes) : s.cfg.timingGate = false := by
  obtain ⟨-, hgate, -⟩ := h
  exact hgate

theorem fetchable_at {s : State} {bs rest : List Byte} {b : Byte} (h : fetchable s (bs ++ b :: rest)) :
    PlainAt s (s.regs.pc + BitVec.ofNat 16 bs.length) b := by
  obtain ⟨-, -, hk⟩ := h
  obtain ⟨hbyte, hread, hexec, hrule, hdue⟩ := hk bs.length (by simp)
  exact ⟨by simpa using hbyte, hread, hexec, hrule, hdue⟩

theorem readByte_plain {s : State} {b : Byte} (h : PlainAt s s.regs.pc b) (hgate : s.cfg.timingGate = false)
    (kind : AccessKind) : readByte kind s.regs.pc s = .ok b (setBus b (setDirection true false s)) := by
  rw [readByte_readable kind h.read, afterRead, addTGated_closed (s := setDirection true false s) hgate,
    h.byte]

theorem checkExec_allowed {s : State} (h : (slotOf s s.regs.pc).noExec = false) (hr : s.cfg.execRule = .default) :
    checkExec s = .ok () s := by
  simp [checkExec, execAllowed, execRule, h, hr]

theorem bootUnmapCheck_notDue {a : Word} {s : State} (h : bootUnmapDue a s = false) :
    bootUnmapCheck a s = .ok () s := by
  simp [bootUnmapCheck, h]

/-- The state that the read of an opcode fetch leaves, where it is plain. -/
def afterFetch (s : State) : State := advanceR 1 (setPc (s.regs.pc + 1) (afterRead .fetch s.regs.pc s))

@[simp] theorem afterFetch_regs (s : State) :
    (afterFetch s).regs = { s.regs with pc := s.regs.pc + 1, r := refreshBy 1 s.regs.r } := by
  simp [afterFetch, advanceR]
@[simp] theorem afterFetch_mem (s : State) : (afterFetch s).mem = s.mem := by simp [afterFetch, advanceR]
@[simp] theorem afterFetch_pio (s : State) : (afterFetch s).pio = s.pio := by simp [afterFetch, advanceR, afterRead]
@[simp] theorem afterFetch_log (s : State) : (afterFetch s).log = s.log := by simp [afterFetch, advanceR, afterRead]

theorem afterFetch_timer {s : State} (hgate : s.cfg.timingGate = false) : (afterFetch s).timer = s.timer := by
  simp [afterFetch, advanceR, afterRead, addTGated, hgate]

/-- An opcode fetch is its two checks and a plain read; `PC` is that of the state the checks leave. -/
theorem opcodeFetch_readable {s t u : State} (hexec : checkExec s = .ok () t)
    (hboot : bootUnmapCheck t.regs.pc t = .ok () u) (hread : readable u u.regs.pc = true) :
    opcodeFetch s = .ok (byteAt u u.regs.pc) (afterFetch u) := by
  simp only [opcodeFetch, hexec, andThen_ok, hboot, readByte_readable _ hread, afterRead_regs, afterFetch]

theorem opcodeFetch_plain {s : State} {b : Byte} (h : PlainAt s s.regs.pc b) (hgate : s.cfg.timingGate = false) :
    opcodeFetch s = .ok b (advanceR 1 (setPc (s.regs.pc + 1) (setBus b (setDirection true false s)))) := by
  simp only [opcodeFetch, checkExec_allowed h.exec h.rule, andThen_ok, bootUnmapCheck_notDue h.mapped,
    readByte_plain h hgate, setBus_regs, setDirection_regs]

theorem fetch8_plain {s : State} {b : Byte} (h : PlainAt s s.regs.pc b) (hgate : s.cfg.timingGate = false) :
    fetch8 s = .ok b (setPc (s.regs.pc + 1) (setBus b (setDirection true false s))) := by
  simp only [fetch8, memRead, readByte_plain h hgate, andThen_ok, setBus_regs, setDirection_regs]

/-- The state inside a step from `s` in which the bytes `bs` have been fetched, `m` of them as opcodes, and `pfx` is
`p`. -/
def midFetch (s : State) (m : Nat) (bs : List Byte) (p : Pfx) : State :=
  let u := historyAppend (clearStepFlags s)
  { u with
    regs := { u.regs with pc := s.regs.pc + BitVec.ofNat 16 bs.length, r := refreshBy m s.regs.r }
    ctl := { u.ctl with bus := bs.getLastD 0, read := true, write := false, pfx := p } }

theorem midFetch_setPfx (s : State) (m : Nat) (bs : List Byte) (p q : Pfx) :
    setPfx q (midFetch s m bs p) = midFetch s m bs q := rfl

theorem midFetch_fetchByte (s : State) (m : Nat) (bs : List Byte) (p : Pfx) (b : Byte) :
    setPc ((midFetch s m bs p).regs.pc + 1) (setBus b (setDirection true false (midFetch s m bs p))) =
      midFetch s m (bs ++ [b]) p := by
  have hpc : (midFetch s m bs p).regs.pc + 1 = s.regs.pc + BitVec.ofNat 16 (bs ++ [b]).length := by
    rw [List.length_append, BitVec.ofNat_add, ← BitVec.add_assoc]
    rfl
  rw [hpc, midFetch, midFetch, List.getLastD_concat]
  rfl

theorem midFetch_advanceR (s : State) (m : Nat) (bs : List Byte) (p : Pfx) :
    advanceR 1 (midFetch s m bs p) = midFetch s (m + 1) bs p := by
  have hr : refreshBy 1 (midFetch s m bs p).regs.r = refreshBy (m + 1) s.regs.r := refreshBy_refreshBy 1 m s.regs.r
  rw [advanceR, onRegs, hr]
  rfl

section
variable {s : State} {bs rest : List Byte} {b : Byte} (m : Nat) (p : Pfx)

theorem fetch8_midFetch (h : fetchable s (bs ++ b :: rest)) :
    fetch8 (midFetch s m bs p) = .ok b (midFetch s m (bs ++ [b]) p) := by
  rw [← midFetch_fetchByte]
  exact fetch8_plain ((fetchable_at h).congr rfl rfl) (fetchable_gate (s := s) h)

theorem opcodeFetch_midFetch (h : fetchable s (bs ++ b :: rest)) :
    opcodeFetch (midFetch s m bs p) = .ok b (midFetch s (m + 1) (bs ++ [b]) p) := by
  rw [← midFetch_advanceR, ← midFetch_fetchByte]
  exact opcodeFetch_plain ((fetchable_at h).congr rfl rfl) (fetchable_gate (s := s) h)

theorem opcodeFetch_first (h : fetchable s (b :: rest)) :
    opcodeFetch (setPfx .none (historyAppend (clearStepFlags s))) = .ok b (midFetch s 1 [b] .none) := by
  have hplain : PlainAt s s.regs.pc b := by simpa using fetchable_at (bs := []) h
  exact opcodeFetch_plain (hplain.congr rfl rfl) (fetchable_gate (s := s) h)

theorem fetchOperands_midFetch {e : Entry} {n : Nat} {d : Decoded} (hf : fetchable s (bs ++ rest))
    (h : e.takeFrom n rest = .ok d) (hd : d.rest = []) :
    fetchOperands e (midFetch s m bs p) = .ok d.instr (midFetch s m (bs ++ rest) p) := by
  cases e with
  | done i =>
    cases h
    obtain rfl : rest = [] := hd
    rw [List.append_nil]
    rfl
  | take1 k =>
    rcases rest with _ | ⟨b, rest⟩
    · cases h
    cases h
    obtain rfl : rest = [] := hd
    rw [fetchOperands, fetch8_midFetch m p hf]
    rfl
  | take2 k =>
    rcases rest with _ | ⟨b, _ | ⟨c, rest⟩⟩
    · cases h
    · cases h
    cases h
    obtain rfl : rest = [] := hd
    have hf' : fetchable s (bs ++ [b] ++ [c]) := by simpa using hf
    rw [fetchOperands, fetch8_midFetch m p hf, andThen_ok, fetch8_midFetch m p hf', List.append_assoc]
    rfl

end

/-! ## The step of a fetched instruction -/

/-- What `pfx` is when an instruction executes, if it was `p` before its bytes (`execPfx` for `p` none). -/
def pfxOf (i : Instr) (p : Pfx) (bytes : List Byte) : Pfx :=
  if (encode i).head? = some 0xED then .none else pfxAfter p bytes

theorem fetched_eq (s : State) (bytes : List Byte) (d : Decoded) :
    fetched s bytes d = midFetch s (opcodeFetches d.prefixes d.instr) bytes (pfxOf d.instr .none bytes) := rfl

theorem pfxOf_ed {i : Instr} {tail : List Byte} (h : encode i = 0xED :: tail) (p : Pfx) (bytes : List Byte) :
    pfxOf i p bytes = .none := by
  rw [pfxOf, h]
  rfl

theorem pfxOf_index {i : Instr} {op : Byte} {q : Pfx} (h : routeOf op = .index q) (p : Pfx) (rest : List Byte) :
    pfxOf i p (op :: rest) = pfxOf i q rest := by
  simp only [pfxOf, pfxAfter, h]

theorem pfxOf_opens {i : Instr} {b op : Byte} {tail : List Byte} (he : encode i = b :: tail) (hb : b ≠ 0xED)
    (hop : OpensInstr op) (p : Pfx) (rest : List Byte) : pfxOf i p (op :: rest) = p := by
  rw [pfxOf, he, if_neg (by simpa using hb), pfxAfter]
  split
  case h_1 q hq => exact absurd hq (hop q)
  case h_2 => rfl

theorem runPrefix_index {op : Byte} {q : Pfx} (h : routeOf op = .index q) (s : State) :
    runPrefix q.instr s = .ok () (setPfx q s) := by
  obtain ⟨x, hx, -⟩ := index_of_route h
  cases q
  · cases hx
  · rfl
  · rfl

theorem opcodeFetches_two {i : Instr} {b : Byte} {tail : List Byte} (h : encode i = b :: tail)
    (hb : b = 0xCB ∨ b = 0xED) (n : Nat) : opcodeFetches n i = n + 2 := by
  rw [opcodeFetches, h]
  rcases hb with rfl | rfl <;> rfl

theorem opcodeFetches_one {i : Instr} {b : Byte} {tail : List Byte} (h : encode i = b :: tail)
    (hb : b ≠ 0xCB ∧ b ≠ 0xED) (n : Nat) : opcodeFetches n i = n + 1 := by
  rw [opcodeFetches, h]
  simpa using hb

theorem prefixByte_ne (x : Index) : x.prefixByte ≠ 0xCB ∧ x.prefixByte ≠ 0xED := by
  cases x <;> decide

/-- What an opcode byte of the base table selects begins with that byte, or with DD or FD: never with CB or ED. -/
theorem encode_of_base {o : Option Index} {op : Byte} {tail : List Byte} {i : Instr} (h : Selects o (op :: tail) i)
    (hr : routeOf op = .base) : ∃ b bytes, encode i = b :: bytes ∧ b ≠ 0xCB ∧ b ≠ 0xED := by
  rcases h with ⟨-, -, he⟩ | ⟨x, -, -, -, he⟩
  · refine ⟨op, _, he, ?_, ?_⟩ <;> (rintro rfl; cases hr)
  · exact ⟨_, _, he, prefixByte_ne x⟩

/-- The routing of `op`, the last of the bytes `bs` already fetched, fetches the bytes `rest` and gives `d`. -/
def RoutesTo (s : State) (fuel n : Nat) (op : Byte) (bs rest : List Byte) (p : Pfx) (d : Decoded) : Prop :=
  routeFrom fuel n op (midFetch s (n + 1) bs p) = .ok (d.instr, d.prefixes)
    (midFetch s (opcodeFetches d.prefixes d.instr) (bs ++ rest) (pfxOf d.instr p (op :: rest)))

section
variable {s : State} {n : Nat} {bs rest : List Byte} {p : Pfx} {d : Decoded}

theorem routesTo_ed {op : Byte} (h : decodeFrom p n (op :: rest) = .ok d) (hd : d.rest = [])
    (hf : fetchable s (bs ++ rest)) (hr : routeOf op = .ed) (fuel : Nat) : RoutesTo s (fuel + 1) n op bs rest p d := by
  simp only [decodeFrom, hr] at h
  rcases rest with _ | ⟨op2, rest⟩
  · cases h
  have hf' : fetchable s (bs ++ [op2] ++ rest) := List.append_cons bs op2 rest ▸ hf
  have hpfx : runPrefix .prefixEd (midFetch s (n + 1) bs p) = .ok () (midFetch s (n + 1) bs .none) := rfl
  obtain ⟨l, u, hinstr, -, hcount⟩ := Entry.takeFrom_ok h
  have henc : encode d.instr = 0xED :: _ := hinstr ▸ (edEntry_encodes op2 l u).2.2
  simp only [RoutesTo, routeFrom, hr, hpfx, andThen_ok, opcodeFetch_midFetch _ _ hf,
    fetchOperands_midFetch _ _ hf' h hd]
  rw [opcodeFetches_two henc (.inr rfl), pfxOf_ed henc, hcount, ← List.append_cons]

theorem routesTo_cb {op : Byte} (h : decodeFrom p n (op :: rest) = .ok d) (hd : d.rest = [])
    (hf : fetchable s (bs ++ rest)) (hr : routeOf op = .cb) (hp : p.index = none) (fuel : Nat) :
    RoutesTo s (fuel + 1) n op bs rest p d := by
  have hop : OpensInstr op := fun q hq => by rw [hr] at hq; cases hq
  have hp' : (midFetch s (n + 1) bs p).ctl.pfx.index = none := hp
  simp only [decodeFrom, hr, hp] at h
  rcases rest with _ | ⟨op2, rest⟩
  · cases h
  cases h
  obtain rfl : rest = [] := hd
  have hpfx : runPrefix .prefixCb (midFetch s (n + 1) bs p) = .ok () (midFetch s (n + 1) bs p) := rfl
  obtain ⟨-, -, henc⟩ := cbEntry_encodes op2
  simp only [RoutesTo, routeFrom, hr, hp', hpfx, andThen_ok, opcodeFetch_midFetch _ _ hf]
  rw [opcodeFetches_two henc (.inl rfl), pfxOf_opens henc (by decide) hop]

theorem routesTo_xycb {op : Byte} {x : Index} (h : decodeFrom p n (op :: rest) = .ok d) (hd : d.rest = [])
    (hf : fetchable s (bs ++ rest)) (hr : routeOf op = .cb) (hp : p.index = some x) (fuel : Nat) :
    RoutesTo s (fuel + 1) n op bs rest p d := by
  have hop : OpensInstr op := fun q hq => by rw [hr] at hq; cases hq
  have hp' : (midFetch s (n + 1) bs p).ctl.pfx.index = some x := hp
  simp only [decodeFrom, hr, hp] at h
  rcases rest with _ | ⟨e, _ | ⟨op2, rest⟩⟩
  · cases h
  · cases h
  cases h
  obtain rfl : rest = [] := hd
  have hf' : fetchable s (bs ++ [e] ++ [op2]) := List.append_cons bs e [op2] ▸ hf
  have hpfx : runPrefix .prefixXyCb (midFetch s (n + 1) bs p) = .ok () (midFetch s (n + 1) bs p) := rfl
  have hx := prefixByte_ne x
  obtain ⟨-, -, henc⟩ := xycbEntry_encodes x e op2
  simp only [RoutesTo, routeFrom, hr, hp', hpfx, andThen_ok, fetch8_midFetch _ _ hf, fetch8_midFetch _ _ hf']
  rw [opcodeFetches_one henc hx, pfxOf_opens henc hx.2 hop, ← List.append_cons]

theorem routesTo_base {op : Byte} (h : decodeFrom p n (op :: rest) = .ok d) (hd : d.rest = [])
    (hf : fetchable s (bs ++ rest)) (hr : routeOf op = .base) (fuel : Nat) :
    RoutesTo s (fuel + 1) n op bs rest p d := by
  have hdec : (baseEntry p op).takeFrom n rest = .ok d := by simpa only [decodeFrom, hr] using h
  have hop : OpensInstr op := fun q hq => by rw [hr] at hq; cases hq
  have hpfx : (midFetch s (n + 1) bs p).ctl.pfx = p := rfl
  obtain ⟨l, u, hinstr, -, hcount⟩ := Entry.takeFrom_ok hdec
  obtain ⟨b, tail, henc, hb⟩ := encode_of_base (hinstr ▸ baseEntry_selects p hr l u) hr
  simp only [RoutesTo, routeFrom, hr]
  rw [hpfx, fetchOperands_midFetch _ _ hf hdec hd, andThen_ok, opcodeFetches_one henc hb, hcount,
    pfxOf_opens henc hb.2 hop]

end

/-- The routing of an opcode byte that has just been fetched gives what the decoder gives. -/
theorem routesTo_of_decodeFrom {s : State} {fuel n : Nat} {op : Byte} {bs rest : List Byte} {p : Pfx} {d : Decoded}
    (h : decodeFrom p n (op :: rest) = .ok d) (hd : d.rest = []) (hfuel : rest.length < fuel)
    (hf : fetchable s (bs ++ rest)) : RoutesTo s fuel n op bs rest p d := by
  induction fuel generalizing n op bs rest p with
  | zero => omega
  | succ fuel ih =>
    cases hr : routeOf op with
    | index q =>
      rw [decodeFrom_index hr] at h
      rcases rest with _ | ⟨op2, rest⟩
      · cases h
      have hf' : fetchable s (bs ++ [op2] ++ rest) := List.append_cons bs op2 rest ▸ hf
      have hrest := ih h (by simpa using hfuel) hf'
      simp only [RoutesTo, routeFrom, hr] at hrest ⊢
      rw [runPrefix_index hr, andThen_ok, midFetch_setPfx, opcodeFetch_midFetch _ _ hf, andThen_ok, hrest,
        pfxOf_index hr, ← List.append_cons]
    | ed => exact routesTo_ed h hd hf hr fuel
    | cb =>
      cases hp : p.index with
      | none => exact routesTo_cb h hd hf hr hp fuel
      | some x => exact routesTo_xycb h hd hf hr hp fuel
    | base => exact routesTo_base h hd hf hr fuel

/-- Settles O5: the fetches read the bytes as the decoder reads them. -/
theorem stepRunsDecodedInstruction : Obligations.StepRunsDecodedInstruction := by
  intro s bytes d h hd hlen hf
  rcases bytes with _ | ⟨op, rest⟩
  · cases h
  have hroute : routeFrom prefixBound 0 op (midFetch s 1 [op] .none) =
      .ok (d.instr, d.prefixes) (fetched s (op :: rest) d) := by
    rw [fetched_eq]
    exact routesTo_of_decodeFrom (bs := [op]) h hd hlen hf
  have hrun : runInstruction (historyAppend (clearStepFlags s)) =
      (Res.ofOutcome (exec d.instr (fetched s (op :: rest) d))).andThen fun _ t =>
        .ok (some d.instr) (setPfx .none (addT (4 * redundantPrefixes d.prefixes d.instr) t)) := by
    have hhalt : (historyAppend (clearStepFlags s)).ctl.halt = false := hf.1
    rw [runInstruction, hhalt, if_neg (by decide), opcodeFetch_first hf, andThen_ok, execute, hroute, andThen_ok]
    cases Res.ofOutcome (exec d.instr (fetched s (op :: rest) d)) <;> rfl
  rw [step, runStep, hrun]
  cases Res.ofOutcome (exec d.instr (fetched s (op :: rest) d)) <;> rfl

/-! ## Checks inside an opcode fetch -/

theorem bankOf_ne_zero_iff {a : Word} : bankOf a ≠ 0 ↔ 0x4000 ≤ a.toNat := by
  have hbank : bankOf a = 0 ↔ a.toNat / 16384 = 0 := by
    rw [← bankOf_toNat]
    exact ⟨fun h => by rw [h]; rfl, fun h => BitVec.eq_of_toNat_eq h⟩
  rw [ne_eq, hbank]
  omega

theorem bootUnmapDue_iff {a : Word} {s : State} (h : s.cfg.modelClass = .flashEra) :
    bootUnmapDue a s = true ↔ s.mem.bootUnmapDone = false ∧ 0x4000 ≤ a.toNat := by
  simp [bootUnmapDue, h, ← bankOf_ne_zero_iff]

/-- `s` with Flash page 0 in bank 0, the boot page unmapped (30_encoding R155). -/
def bootUnmapped (s : State) : State :=
  setBootUnmapDone { s with mem := { s.mem with normal := s.mem.normal.setSlot 0 (BankSlot.fresh false 0) } }

theorem bootUnmapCheck_due {a : Word} {s : State} (h : bootUnmapDue a s = true) (hpages : 0 < s.cfg.flashPages) :
    bootUnmapCheck a s = .ok () (bootUnmapped s) := by
  rw [bootUnmapCheck, if_pos h, changePage_of_lt (p := 0) (k := false) (s := s) hpages]
  rfl

/-- Both views take the slots outside bank 0 from the other slots of the normal table. -/
theorem slotOf_bootUnmapped {a : Word} (h : bankOf a ≠ 0) (s : State) : slotOf (bootUnmapped s) a = slotOf s a := by
  have hn : (bankOf a).toNat ≠ 0 := fun e => h (BitVec.eq_of_toNat_eq e)
  have hbank : ∀ t u : BankTable, t.slot1 = u.slot1 → t.slot2 = u.slot2 → t.slot3 = u.slot3 →
      t.ofBank (bankOf a) = u.ofBank (bankOf a) := fun t u h1 h2 h3 => by
    unfold BankTable.ofBank
    split
    exacts [absurd ‹_› hn, h1, h2, h3]
  unfold slotOf activeTable
  cases hv : s.mem.view <;> simp only [bootUnmapped, setBootUnmapDone_mem, hv] <;> exact hbank _ _ rfl rfl rfl

theorem resolve_bootUnmapped {a : Word} (h : bankOf a ≠ 0) (s : State) : resolve (bootUnmapped s) a = resolve s a := by
  unfold resolve shadowed
  rw [slotOf_bootUnmapped h]
  rfl

theorem readable_bootUnmapped {a : Word} (h : bankOf a ≠ 0) (s : State) :
    readable (bootUnmapped s) a = readable s a := by
  unfold readable decodedRead
  rw [slotOf_bootUnmapped h, resolve_bootUnmapped h]
  rfl

theorem byteAt_bootUnmapped {a : Word} (h : bankOf a ≠ 0) (s : State) : byteAt (bootUnmapped s) a = byteAt s a := by
  rw [byteAt, resolve_bootUnmapped h]
  rfl

/-- Settles O42: the fetch reads outside bank 0, whose slots the unmap leaves as they are. -/
theorem bootUnmap : Obligations.BootUnmap := by
  intro s hclass hpages hexec hrule hread
  have hcheck := checkExec_allowed hexec hrule
  simp only [← bootUnmapDue_iff hclass]
  by_cases hdue : bootUnmapDue s.regs.pc s = true
  · have hbank : bankOf s.regs.pc ≠ 0 := bankOf_ne_zero_iff.mpr ((bootUnmapDue_iff hclass).mp hdue).2
    have hfetch := opcodeFetch_readable hcheck (bootUnmapCheck_due hdue hpages)
      ((readable_bootUnmapped hbank s).trans hread)
    have hbyte : byteAt (bootUnmapped s) (bootUnmapped s).regs.pc = byteAt s s.regs.pc := byteAt_bootUnmapped hbank s
    have hmem : (afterFetch (bootUnmapped s)).mem = (bootUnmapped s).mem := afterFetch_mem _
    exact ⟨_, by rw [hfetch, hbyte], afterFetch_regs (bootUnmapped s), by rw [if_pos hdue, hmem]; rfl⟩
  · have hfetch := opcodeFetch_readable hcheck (bootUnmapCheck_notDue (by simpa using hdue)) hread
    exact ⟨_, hfetch, afterFetch_regs _, by rw [if_neg hdue, afterFetch_mem]⟩

/-- The state in which the fetch goes on after an execution violation at the program counter of `s` (60_exceptions
R521). -/
def afterViolation (s : State) : State :=
  resetTo (BankTable.flashEra s.cfg.flashPages) (logLine (.event (.execViolation s.regs.pc)) s)

theorem checkExec_violation {s : State} (hexec : (slotOf s s.regs.pc).noExec = true)
    (hclass : s.cfg.modelClass = .flashEra) (hhook : s.cfg.hooks.execViolation = none) :
    checkExec s = .ok () (afterViolation s) := by
  simp [checkExec, execAllowed, hexec, raiseExecViolation, hhook, resetCpu, hclass, afterViolation]

theorem bootUnmapCheck_zero (s : State) : bootUnmapCheck 0 s = .ok () s :=
  bootUnmapCheck_notDue (by simp [bootUnmapDue, bankOf])

/-- After the reset, address 0 is the first byte of the last Flash page. -/
theorem resolve_afterViolation {s : State} (hmax : s.cfg.flashPages ≤ 256) (hpos : 0 < s.cfg.flashPages) :
    resolve (afterViolation s) 0 = (false, (s.cfg.flashPages - 1) * 16384) := by
  have hslot : slotOf (afterViolation s) 0 = BankSlot.fresh false (BitVec.ofNat 8 (s.cfg.flashPages - 1)) := rfl
  have hpage : (s.cfg.flashPages - 1) % 256 = s.cfg.flashPages - 1 := Nat.mod_eq_of_lt (by omega)
  rw [resolve_flashSlot (s := afterViolation s) rfl rfl, flashAddr, hslot]
  simp [BankSlot.fresh, hpage, offsetOf]

theorem readable_afterViolation {s : State} (hmax : s.cfg.flashPages ≤ 256) (hpos : 0 < s.cfg.flashPages)
    (hmarks : s.mem.marks = []) : readable (afterViolation s) 0 = true := by
  rw [readable, resolve_afterViolation hmax hpos]
  simp [inStore, storeSize, decodedRead, markedFor, afterViolation, resetTo, MemCtx.resetTo, hmarks]
  omega

/-- Settles O43: the violation resets the CPU, and the fetch goes on at address 0. -/
theorem executionViolation : Obligations.ExecutionViolation := by
  intro s hexec hclass hhook hmarks hpos hmax
  have hfetch := opcodeFetch_readable (checkExec_violation hexec hclass hhook) (bootUnmapCheck_zero _)
    (readable_afterViolation hmax hpos hmarks)
  have hbyte : byteAt (afterViolation s) 0 = storeGet s false ((s.cfg.flashPages - 1) * 16384) := by
    rw [byteAt, resolve_afterViolation hmax hpos]
    rfl
  refine ⟨afterFetch (afterViolation s), hbyte ▸ hfetch, ?_, ?_, ?_, ?_, ?_, ?_,
    fun hgate => afterFetch_timer (s := afterViolation s) hgate⟩
  · simp [afterViolation, resetTo, Regs.reset, refreshBy]
  all_goals simp [afterViolation, resetTo, MemCtx.resetTo]

/-! ## The rest of a step: prefixes, polls and the delivery of interrupts -/

/-- Settles O30: each row is one write of `pfx`, or none. -/
theorem prefixBytes : Obligations.PrefixBytes := fun _ => ⟨rfl, rfl, rfl, rfl, rfl⟩

/-- Settles O44: the guard of the delivery is false, and the start of a step writes only its two flags. -/
theorem interruptNotTaken : Obligations.InterruptNotTaken := by
  refine ⟨fun ran s h => ?_, fun s => ⟨rfl, rfl, rfl⟩⟩
  rw [deliverIfDue, if_neg]
  rcases h with h | h | h <;> simp [h]

/-- The delivery in mode 1, after the acknowledgement: a call of the vector that takes `IM1_TSTATES`. -/
theorem deliverIm1_does {s : State} (hs : Consistent s = true) (h1 : writable s (s.regs.sp - 1) = true)
    (h2 : writable s (s.regs.sp - 2) = true) :
    Does s (deliverIm1 s) () { s.regs with sp := s.regs.sp - 2, pc := s.cfg.im1Vector }
      [(s.regs.sp - 1, hi s.regs.pc), (s.regs.sp - 2, lo s.regs.pc)] s.cfg.im1Tstates := by
  obtain ⟨hram, hflash, hnormal⟩ := Consistent.parts hs
  obtain ⟨t, ht, he, hr, hf⟩ := push16_does hram hflash hnormal h1 h2 s.regs.pc
  refine ⟨addT s.cfg.im1Tstates (setPc s.cfg.im1Vector t), ?_, ?_, hr, hf⟩
  · rw [deliverIm1, ht, andThen_ok, he.model.2]
  · have heffect := (he.thenRegs fun g => { g with pc := s.cfg.im1Vector }).thenT s.cfg.im1Tstates
    rw [Nat.zero_add] at heffect
    exact heffect

theorem consistent_acknowledge {s : State} (hs : Consistent s = true) (ran : Option Instr) :
    Consistent (acknowledge ran s) = true := by
  rw [acknowledge_eq]
  exact consistent_setRegs hs fun _ => rfl

/-- A taken request in mode 1, `HALT` apart, as one effect. -/
theorem deliverIfDue_im1 {s : State} (hs : Consistent s = true) (hreq : s.ctl.interrupt = true)
    (hblock : s.ctl.eiBlock = false) (hiff : s.regs.iff1 = true) (him : s.regs.im = .im1)
    (h1 : writable s (s.regs.sp - 1) = true) (h2 : writable s (s.regs.sp - 2) = true) (ran : Option Instr) :
    ∃ u, deliverIfDue ran s = .ok () u ∧ u.ctl.halt = false ∧
      Effect s { u with ctl := { u.ctl with halt := s.ctl.halt } }
        { (acknowledge ran s).regs with sp := s.regs.sp - 2, pc := s.cfg.im1Vector }
        [(s.regs.sp - 1, hi s.regs.pc), (s.regs.sp - 2, lo s.regs.pc)] s.cfg.im1Tstates := by
  have hsame := acknowledge_same ran s
  have hsp : (acknowledge ran s).regs.sp = s.regs.sp := by rw [acknowledge_eq]
  have hpc : (acknowledge ran s).regs.pc = s.regs.pc := by rw [acknowledge_eq]
  have him' : (acknowledge ran s).regs.im = .im1 := by rw [acknowledge_eq]; exact him
  have hdoes := deliverIm1_does (consistent_acknowledge hs ran) (by rw [hsp, hsame.writable]; exact h1)
    (by rw [hsp, hsame.writable]; exact h2)
  rw [hsp, hpc, hsame.2] at hdoes
  obtain ⟨u, hu, he, -, -⟩ := hdoes
  refine ⟨u, ?_, he.ofAcknowledge⟩
  simp only [deliverIfDue, hreq, hblock, hiff, Bool.not_false, Bool.and_self, if_true, deliverInterrupt, him']
  exact hu

/-- The poll of the one entry of the chain, due, whose device is an interrupt source: it raises the request and starts
the count again. -/
theorem pollInterrupts_irq {s : State} {e : IntEntry} {d : Device} {vec : Byte} (hin : s.ctl.input = false)
    (hout : s.ctl.output = false) (hentries : s.pio.intEntries = [e]) (hdue : e.skipCount ≤ 1)
    (hdev : deviceAt s e.value = some d) (hactive : d.active = true) (hkind : d.kind = .irq vec) :
    pollInterrupts s = .ok () (setEntry 0 { e with skipCount := e.skipFactor }
      { s with ctl := { s.ctl with interrupt := true, bus := vec } }) := by
  have hpoll : pollDevice e.value s = .ok () { s with ctl := { s.ctl with interrupt := true, bus := vec } } := by
    simp [pollDevice, runDevice, hdev, hactive, Device.run, hkind, hin, hout, endTransfer]
  simp [pollInterrupts, hentries, pollFrom, pollEntry, hdue, hpoll]

theorem profileIfEnabled_eq (pc0 : Word) (t0 : Nat) (s : State) :
    ∃ dbg, profileIfEnabled pc0 t0 s = { s with dbg := dbg } := by
  unfold profileIfEnabled
  split
  exacts [⟨_, rfl⟩, ⟨_, rfl⟩]

/-- The state of a halted step from `s` after its tick and the poll that raised the request. -/
def haltedRequest (s : State) (e : IntEntry) (vec : Byte) : State :=
  let t := haltedTick (historyAppend (clearStepFlags s))
  setEntry 0 { e with skipCount := e.skipFactor } { t with ctl := { t.ctl with interrupt := true, bus := vec } }

theorem consistent_haltedRequest {s : State} (hs : Consistent s = true) (e : IntEntry) (vec : Byte) :
    Consistent (haltedRequest s e vec) = true :=
  consistent_setRegs (consistent_historyAppend (s := clearStepFlags s) hs) fun h => h

/-- A halted step is its tick, the polls and the delivery. -/
theorem step_halted {s t u : State} (hhalt : s.ctl.halt = true)
    (hpoll : pollInterrupts (haltedTick (historyAppend (clearStepFlags s))) = .ok () t)
    (hdeliver : deliverIfDue none t = .ok () u) :
    step s = .next (setPfx .none (profileIfEnabled s.regs.pc s.timer.tstates u)) := by
  have hrun : runInstruction (historyAppend (clearStepFlags s)) =
      .ok none (haltedTick (historyAppend (clearStepFlags s))) := if_pos hhalt
  rw [step, runStep, hrun, andThen_ok, finishStep, hpoll, andThen_ok, hdeliver]
  rfl

/-- Settles O48: the halted tick, the poll that raises the request, and its delivery in mode 1. -/
theorem haltedCpuWakes : Obligations.HaltedCpuWakes := by
  intro s e d vec hs hhalt hiff him hin hout hentries hdue hdev hactive hkind h1 h2 g
  have hpoll : pollInterrupts (haltedTick (historyAppend (clearStepFlags s))) = .ok () (haltedRequest s e vec) :=
    pollInterrupts_irq hin hout hentries hdue hdev hactive hkind
  have hsame : sameMap s (haltedRequest s e vec) := sameMap_of_mem rfl rfl
  obtain ⟨u, hdeliver, hawake, he⟩ := deliverIfDue_im1 (consistent_haltedRequest hs e vec) rfl rfl hiff him
    ((hsame.writable _).trans h1) ((hsame.writable _).trans h2) none
  obtain ⟨dbg, hprofile⟩ := profileIfEnabled_eq s.regs.pc s.timer.tstates u
  have hhigh : byteAt u (g.sp - 1) = hi g.pc := he.stored (g.sp - 1, hi g.pc) List.mem_cons_self
  have hlow : byteAt u (g.sp - 2) = lo g.pc :=
    he.stored (g.sp - 2, lo g.pc) (List.mem_cons_of_mem _ List.mem_cons_self)
  have hchain : u.pio.intEntries = [{ e with skipCount := e.skipFactor }] := by
    have hpio : u.pio = (haltedRequest s e vec).pio := he.agents.1
    have hset : (haltedRequest s e vec).pio.intEntries =
      s.pio.intEntries.set 0 { e with skipCount := e.skipFactor } := rfl
    rw [hpio, hset, hentries]
    rfl
  refine ⟨_, step_halted hhalt hpoll hdeliver, ?_⟩
  rw [hprofile]
  exact ⟨hawake, he.regs.trans (by rw [acknowledge_eq]; rfl), hhigh, hlow, hchain⟩

end Machine

end Sys2Proof
end

section
/-! PROOFS of the family 40_load8: the loads and stores, and the registers that only named instructions write. -/

namespace Sys2Proof.Machine

/-! ## Sample words -/

/-- Settles O4: each word is the encoding of its instruction (O1), the last one after a DD byte that only counts. -/
theorem sampleWordsDecode : Obligations.SampleWordsDecode :=
  ⟨decodeEncode (.ldRMemIx .b 0xFF) [] rfl rfl,
   decodeEncode (.ldMemIxN 0x05 0xAA) [] rfl rfl,
   decodeEncode (.ldMemNnDd 0x8123 .sp) [] rfl rfl,
   decodeEncode .addAIxl [] rfl rfl,
   decodeEncode (.srlR .b) [] rfl rfl,
   decodeEncode (.sraMemIx 0x03) [] rfl rfl,
   decodeEncode (.rlcMemIxR 0x01 .b) [] rfl rfl,
   decodeEncode (.bitBMemIy 6 0x14) [] rfl rfl,
   decodeEncode (.callNn 0x9000) [] rfl rfl,
   decodeEncode (.inRC .a) [] rfl rfl,
   (decodeFrom_index rfl).trans rfl⟩

/-! ## The loads between registers and of immediates -/

/-- Settles O7: each of these meanings is one change of the register file. -/
theorem registerLoads : Obligations.RegisterLoads := fun _ =>
  ⟨fun _ _ => completes_of_regs rfl, fun _ _ => completes_of_regs rfl,
   fun _ _ => completes_of_regs rfl, fun _ _ => completes_of_regs rfl,
   fun _ _ => completes_of_regs rfl, fun _ _ => completes_of_regs rfl,
   fun _ => completes_of_regs rfl, fun _ => completes_of_regs rfl,
   fun _ => completes_of_regs rfl, fun _ => completes_of_regs rfl,
   completes_of_regs rfl, completes_of_regs rfl, completes_of_regs rfl, completes_of_regs rfl,
   fun _ _ => completes_of_regs rfl, fun _ => completes_of_regs rfl,
   fun _ => completes_of_regs rfl, fun _ => completes_of_regs rfl,
   completes_of_regs rfl, completes_of_regs rfl, completes_of_regs rfl⟩

/-! ## The loads from memory -/

/-- An instruction that only makes accesses, which take no time of their own, takes the T-states of its rule. -/
theorem Does.completes_finish {α : Type} {s : State} {x : Res α} {v : α} {g : Regs} {ws : List (Word × Byte)}
    {i : Instr} {T : Nat} (h : Does s x v g ws 0) (he : exec i s = x.finish T) : Machine.completes i s g ws T := by
  simpa using h.completes he

theorem completes_loadFrom {i : Instr} {s : State} {a : Word} {k : Byte → Regs → Regs} {T : Nat}
    (ha : readable s a = true) (he : exec i s = (loadFrom a k s).finish T) :
    completes i s (k (byteAt s a) s.regs) [] T := (loadFrom_does ha k).completes_finish he

theorem completes_loadWordFrom {i : Instr} {s : State} {a : Word} {k : Word → Regs → Regs} {T : Nat}
    (ha : readable s a = true) (ha' : readable s (a + 1) = true) (he : exec i s = (loadWordFrom a k s).finish T) :
    completes i s (k (wordAt s a) s.regs) [] T := (loadWordFrom_does ha ha' k).completes_finish he

/-- Settles O8: each of these instructions is a read of one byte, or of two, into its destination. -/
theorem memoryLoads : Obligations.MemoryLoads := fun _ =>
  ⟨fun r h => completes_loadFrom (k := Regs.set8 r) h rfl,
   fun r _ h => completes_loadFrom (k := Regs.set8 r) h rfl,
   fun r _ h => completes_loadFrom (k := Regs.set8 r) h rfl,
   fun h => completes_loadFrom (k := Regs.set8 .a) h rfl,
   fun h => completes_loadFrom (k := Regs.set8 .a) h rfl,
   fun _ h => completes_loadFrom (k := Regs.set8 .a) h rfl,
   fun _ h h' =>
    ⟨(loadHlFrom_does h h').completes_finish rfl,
     fun p => completes_loadWordFrom (k := Regs.setPair p) h h' rfl,
     completes_loadWordFrom (k := Regs.setXY .ix) h h' rfl,
     completes_loadWordFrom (k := Regs.setXY .iy) h h' rfl⟩⟩

/-! ## The stores to memory -/

theorem completes_memWrite {i : Instr} {s : State} {a : Word} {v : Byte} {T : Nat} (hs : Consistent s = true)
    (ha : writable s a = true) (he : exec i s = (memWrite a v s).finish T) : completes i s s.regs [(a, v)] T :=
  have ⟨hram, hflash, _⟩ := Consistent.parts hs
  (Does.write hram hflash ha v).completes_finish he

theorem completes_memWrite16 {i : Instr} {s : State} {a v : Word} {T : Nat} (hs : Consistent s = true)
    (ha : writable s a = true) (ha' : writable s (a + 1) = true) (he : exec i s = (memWrite16 a v s).finish T) :
    completes i s s.regs [(a, lo v), (a + 1, hi v)] T :=
  have ⟨hram, hflash, hnormal⟩ := Consistent.parts hs
  (memWrite16_does hram hflash hnormal ha ha' v).completes_finish he

/-- Settles O9: each of these instructions is a write of one byte, or of two, and nothing more. -/
theorem memoryStores : Obligations.MemoryStores := fun _ hs =>
  have ⟨hram, hflash, hnormal⟩ := Consistent.parts hs
  ⟨fun _ h => completes_memWrite hs h rfl, fun _ h => completes_memWrite hs h rfl,
   fun _ _ h => completes_memWrite hs h rfl, fun _ _ h => completes_memWrite hs h rfl,
   fun _ _ h => completes_memWrite hs h rfl, fun _ _ h => completes_memWrite hs h rfl,
   fun h => completes_memWrite hs h rfl, fun h => completes_memWrite hs h rfl,
   fun _ h => completes_memWrite hs h rfl,
   fun _ h h' =>
    ⟨(storeHlTo_does hram hflash hnormal h h').completes_finish rfl,
     fun _ => completes_memWrite16 hs h h' rfl,
     completes_memWrite16 hs h h' rfl,
     completes_memWrite16 hs h h' rfl⟩⟩

/-! ## Which instructions change the special registers -/

/-- What an instruction does to the special registers (`Regs.special`), the other registers left alone. -/
def specialWrite (i : Instr) (g : Regs) : Regs :=
  match i with
  | .ldIA => { g with i := g.a }
  | .ldRegRA => { g with r := g.a }
  | .ei => { g with iff1 := true, iff2 := true }
  | .di => { g with iff1 := false, iff2 := false }
  | .reti | .retn | .retnCopy _ => { g with iff1 := g.iff2 }
  | .im0 | .im0Copy _ => { g with im := .im0 }
  | .im1 | .im1Copy => { g with im := .im1 }
  | .im2 | .im2Copy => { g with im := .im2 }
  | .exAfAf => { g with afAlt := g.af }
  | .exx => { g with bcAlt := g.bc, deAlt := g.de, hlAlt := g.hl }
  | _ => g

section
variable {i : Instr} (g : Regs)

theorem specialWrite_ordinary (hi : ordinary i = true) : specialWrite i g = g := by
  unfold specialWrite
  split
  case h_16 => rfl
  all_goals cases hi

theorem specialWrite_i (h : i ≠ .ldIA) : (specialWrite i g).i = g.i := by
  unfold specialWrite
  split
  case h_1 => exact absurd rfl h
  all_goals rfl

theorem specialWrite_r (h : i ≠ .ldRegRA) : (specialWrite i g).r = g.r := by
  unfold specialWrite
  split
  case h_2 => exact absurd rfl h
  all_goals rfl

theorem specialWrite_iff2 (hei : i ≠ .ei) (hdi : i ≠ .di) : (specialWrite i g).iff2 = g.iff2 := by
  unfold specialWrite
  split
  case h_3 => exact absurd rfl hei
  case h_4 => exact absurd rfl hdi
  all_goals rfl

theorem specialWrite_iff1 (hei : i ≠ .ei) (hdi : i ≠ .di) (hreti : i ≠ .reti) (hretn : i ≠ .retn)
    (hcopy : ∀ y, i ≠ .retnCopy y) : (specialWrite i g).iff1 = g.iff1 := by
  unfold specialWrite
  split
  case h_3 => exact absurd rfl hei
  case h_4 => exact absurd rfl hdi
  case h_5 => exact absurd rfl hreti
  case h_6 => exact absurd rfl hretn
  case h_7 y => exact absurd rfl (hcopy y)
  all_goals rfl

theorem specialWrite_im (h0 : i ≠ .im0) (h1 : i ≠ .im1) (h2 : i ≠ .im2) (h0' : ∀ y, i ≠ .im0Copy y)
    (h1' : i ≠ .im1Copy) (h2' : i ≠ .im2Copy) : (specialWrite i g).im = g.im := by
  unfold specialWrite
  split
  case h_8 => exact absurd rfl h0
  case h_9 y => exact absurd rfl (h0' y)
  case h_10 => exact absurd rfl h1
  case h_11 => exact absurd rfl h1'
  case h_12 => exact absurd rfl h2
  case h_13 => exact absurd rfl h2'
  all_goals rfl

theorem specialWrite_afAlt (h : i ≠ .exAfAf) : (specialWrite i g).afAlt = g.afAlt := by
  unfold specialWrite
  split
  case h_14 => exact absurd rfl h
  all_goals rfl

theorem specialWrite_exx (h : i ≠ .exx) : (specialWrite i g).bcAlt = g.bcAlt ∧ (specialWrite i g).deAlt = g.deAlt ∧
    (specialWrite i g).hlAlt = g.hlAlt := by
  unfold specialWrite
  split
  case h_15 => exact absurd rfl h
  all_goals exact ⟨rfl, rfl, rfl⟩

end

/-- Without an agent of unknown behaviour, the special registers and the halt flag stay as they are. -/
def KeepsSpecial (s t : State) : Prop :=
  tame s = true → (t.regs.special = s.regs.special ∧ t.ctl.halt = s.ctl.halt) ∧ tame t = true

theorem KeepsSpecial.refl (s : State) : KeepsSpecial s s := fun hs => ⟨⟨rfl, rfl⟩, hs⟩

theorem KeepsSpecial.trans {s t u : State} (h : KeepsSpecial s t) (h' : KeepsSpecial t u) :
    KeepsSpecial s u := fun hs =>
  have ⟨⟨hspecial, hhalt⟩, ht⟩ := h hs
  have ⟨⟨hspecial', hhalt'⟩, hu⟩ := h' ht
  ⟨⟨hspecial'.trans hspecial, hhalt'.trans hhalt⟩, hu⟩

/-- A primitive change writes registers or the halt flag only by an agent of unknown behaviour. -/
theorem KeepsSpecial.touch {io w : Bool} {s t : State} (h : Touch io w s t) : KeepsSpecial s t := by
  intro hs
  refine ⟨?_, h.tame.trans hs⟩
  cases h with
  | ctl c hkept => exact ⟨rfl, hkept.1⟩
  | store k p v => cases k <;> exact ⟨rfl, rfl⟩
  | agent t x _ htame => rw [hs] at htame; cases htame
  | hook t xs htame => rw [hs] at htame; cases htame
  | _ => exact ⟨rfl, rfl⟩

/-- A relation that respects the primitive changes, the register writes and the drawing of a free value allows all
that an ordinary instruction can do. -/
theorem Allows.of_touch {R : State → State → Prop} {w : Bool} (refl : ∀ s, R s s)
    (trans : ∀ {s t u}, R s t → R t u → R s u) (touch : ∀ {s t}, Touch true w s t → R s t)
    (regs : ∀ s g, g.special = s.regs.special → R s { s with regs := g }) (free : ∀ s, R s (drawFree s).2) :
    Allows R w :=
  have leads : ∀ {α : Type} {s : State} {x : Res α}, Leads (Touches true w) s x → Leads R s x :=
    fun h v t e => touches_closed refl trans touch (h v t e)
  { refl := refl
    trans := trans
    regs := regs
    time := fun s n => touch (.time s n)
    free := free
    read := fun a s => leads (readByte_leads .read a s)
    write := fun hw a v s => leads (by subst hw; exact memWrite_leads a v s)
    portIn := fun p s => leads (portIn_leads p s)
    portOut := fun p v s => leads (portOut_leads p v s) }

theorem KeepsSpecial.allows : Allows KeepsSpecial true :=
  Allows.of_touch KeepsSpecial.refl KeepsSpecial.trans KeepsSpecial.touch
    (regs := fun _ _ hg hs => ⟨⟨hg, rfl⟩, hs⟩)
    (free := KeepsSpecial.refl)

theorem finish_eq_next {α : Type} {x : Res α} {T : Nat} {t : State} (h : x.finish T = .next t) :
    ∃ v u, x = .ok v u ∧ t = addT T u := by
  cases x with
  | ok v u => cases h; exact ⟨v, u, rfl, rfl⟩
  | fault f => cases h
  | refused r => cases h

/-- The return from an interrupt copies `IFF2` into `IFF1`. -/
theorem returnFromInterrupt_special {s t : State} {T : Nat} (hs : tame s = true)
    (h : (returnFromInterrupt s).finish T = .next t) :
    t.regs.special = { s.regs with iff1 := s.regs.iff2 }.special ∧ t.ctl.halt = s.ctl.halt := by
  obtain ⟨_, u, hret, rfl⟩ := finish_eq_next h
  obtain ⟨_, v, hpop, hu⟩ := andThen_eq_ok hret
  obtain ⟨⟨hspecial, hhalt⟩, -⟩ := KeepsSpecial.allows.returnTo s _ v hpop hs
  cases hu
  simp only [Regs.special, Prod.mk.injEq] at hspecial
  exact ⟨by simp [Regs.special, restoreIff, hspecial], hhalt⟩

/-- What every completed instruction leaves in the special registers, and that only `HALT` halts. -/
theorem exec_special {i : Instr} {s t : State} (hs : tame s = true) (h : exec i s = .next t) :
    t.regs.special = (specialWrite i s.regs).special ∧ (i ≠ .halt → t.ctl.halt = s.ctl.halt) := by
  cases hord : ordinary i with
  | true =>
    obtain ⟨⟨hspecial, hhalt⟩, -⟩ := KeepsSpecial.allows.exec hord (fun _ => rfl) s t h hs
    rw [specialWrite_ordinary _ hord]
    exact ⟨hspecial, fun _ => hhalt⟩
  | false =>
    cases i
    case reti | retn | retnCopy =>
      obtain ⟨hspecial, hhalt⟩ := returnFromInterrupt_special hs h
      exact ⟨hspecial, fun _ => hhalt⟩
    case halt => cases h; exact ⟨rfl, fun hne => absurd rfl hne⟩
    case ldIA | ldRegRA | ei | di | im0 | im1 | im2 | im0Copy | im1Copy | im2Copy | exAfAf | exx | prefixDd | prefixFd |
      prefixEd =>
      cases h
      exact ⟨rfl, fun _ => rfl⟩
    all_goals cases hord

/-- Settles O57: each special register is as `specialWrite` leaves it, and there only named instructions write it. -/
theorem specialRegistersFrame : Obligations.SpecialRegistersFrame := by
  intro i s t hs h
  obtain ⟨hspecial, hhalt⟩ := exec_special hs h
  simp only [Regs.special, Prod.mk.injEq] at hspecial
  obtain ⟨hi, hr, hiff1, hiff2, him, haf, hbc, hde, hhl⟩ := hspecial
  refine ⟨fun h => hi.trans (specialWrite_i _ h), fun h => hr.trans (specialWrite_r _ h),
    fun hei hdi => hiff2.trans (specialWrite_iff2 _ hei hdi),
    fun hei hdi hreti hretn hcopy => hiff1.trans (specialWrite_iff1 _ hei hdi hreti hretn hcopy),
    fun h0 h1 h2 h0' h1' h2' => him.trans (specialWrite_im _ h0 h1 h2 h0' h1' h2'),
    fun h => haf.trans (specialWrite_afAlt _ h), fun h => ?_, hhalt⟩
  obtain ⟨hbc', hde', hhl'⟩ := specialWrite_exx s.regs h
  exact ⟨hbc.trans hbc', hde.trans hde', hhl.trans hhl'⟩

end Sys2Proof.Machine
end

section
/-! PROOFS of the family 41_load16: PUSH and POP. -/

namespace Sys2Proof.Machine

theorem completes_push16 {i : Instr} {s : State} {v : Word} {T : Nat} (hs : Consistent s = true)
    (hhi : writable s (s.regs.sp - 1) = true) (hlo : writable s (s.regs.sp - 2) = true)
    (he : exec i s = (push16 v s).finish T) :
    completes i s { s.regs with sp := s.regs.sp - 2 } [(s.regs.sp - 1, hi v), (s.regs.sp - 2, lo v)] T :=
  have ⟨hram, hflash, hnormal⟩ := Consistent.parts hs
  (push16_does hram hflash hnormal hhi hlo v).completes_finish he

theorem completes_popInto {i : Instr} {s : State} {k : Word → Regs → Regs} {T : Nat}
    (hlo : readable s s.regs.sp = true) (hhi : readable s (s.regs.sp + 1) = true)
    (he : exec i s = (popInto k s).finish T) :
    completes i s (k (wordAt s s.regs.sp) { s.regs with sp := s.regs.sp + 2 }) [] T :=
  (popInto_does hlo hhi k).completes_finish he

/-- Settles O10: each PUSH is one `push16` of its register, and each POP one `pop16` into its register. -/
theorem pushAndPop : Obligations.PushAndPop := fun _ hs =>
  ⟨fun hhi hlo =>
    ⟨fun _ => completes_push16 hs hhi hlo rfl, completes_push16 hs hhi hlo rfl,
     completes_push16 hs hhi hlo rfl, completes_push16 hs hhi hlo rfl⟩,
   fun hlo hhi =>
    ⟨fun q => completes_popInto (k := Regs.setQPair q) hlo hhi rfl,
     completes_popInto (k := Regs.setHl) hlo hhi rfl,
     completes_popInto (k := Regs.setXY .ix) hlo hhi rfl,
     completes_popInto (k := Regs.setXY .iy) hlo hhi rfl⟩⟩

end Sys2Proof.Machine
end

section
/-! PROOFS of the family 42_exchange_block: the exchanges, the block transfers and the block searches. -/

namespace Sys2Proof.Machine

/-! ## The exchanges -/

theorem setHl_de_setDe_hl (g : Regs) :
    (g.setDe g.hl).setHl g.de = { g with d := g.h, e := g.l, h := g.d, l := g.e } := by
  simp [Regs.setDe, Regs.setHl, Regs.de, Regs.hl]

theorem completes_exchangeTop {i : Instr} {s : State} {get : Regs → Word} {k : Word → Regs → Regs} {T : Nat}
    (hs : Consistent s = true) (hlo : readable s s.regs.sp = true) (hhi : readable s (s.regs.sp + 1) = true)
    (wlo : writable s s.regs.sp = true) (whi : writable s (s.regs.sp + 1) = true)
    (he : exec i s = ((exchangeTop get s).andThen fun v s => .ok () (onRegs (k v) s)).finish T) :
    completes i s (k (wordAt s s.regs.sp) s.regs)
      [(s.regs.sp + 1, hi (get s.regs)), (s.regs.sp, lo (get s.regs))] T :=
  have ⟨hram, hflash, hnormal⟩ := Consistent.parts hs
  ((exchangeTop_does hram hflash hnormal get hlo hhi wlo whi).thenRegs k fun _ => ()).completes_finish he

/-- Settles O11: three exchanges are one change of the register file, the others one exchange with the stack top. -/
theorem exchanges : Obligations.Exchanges := fun s =>
  ⟨completes_congr (completes_regs rfl) (setHl_de_setDe_hl s.regs) rfl rfl,
   completes_of_regs rfl, completes_of_regs rfl,
   fun hs hlo hhi wlo whi =>
    ⟨completes_congr (completes_exchangeTop (k := Regs.setHl) hs hlo hhi wlo whi rfl) rfl
      (by simp [Regs.hl]) rfl,
     completes_exchangeTop (k := Regs.setXY .ix) hs hlo hhi wlo whi rfl,
     completes_exchangeTop (k := Regs.setXY .iy) hs hlo hhi wlo whi rfl⟩⟩

/-! ## The repeating block instructions -/

/-- A repeating block instruction, said by the condition on which it stops. -/
theorem completes_repeatWhile {s : State} {x : Res Unit} {g : Regs} {ws : List (Word × Byte)} {i : Instr}
    {again : Regs → Bool} {stop : Prop} [Decidable stop] (h : Does s x () g ws 0) (hstop : again g = true ↔ ¬stop)
    (he : exec i s = repeatWhile again x) :
    completes i s (if stop then g else { g with pc := g.pc - 2 }) ws (if stop then 16 else 21) := by
  simpa only [hstop, ite_not] using repeatWhile_does h again he

/-! ## The block transfers -/

theorem blockLoadEnd_eq (step : Word) (t : Byte) (g : Regs) :
    blockLoadEnd step t g =
      { ((g.setHl (g.hl + step)).setDe (g.de + step)).setBc (g.bc - 1) with
        f := (blockLoadFlags g.a t (g.bc - 1) g.flags).byte } := by
  simp only [blockLoadEnd, Regs.bc_setBc]
  rfl

theorem bcLeft_blockLoadEnd (step : Word) (t : Byte) (g : Regs) :
    bcLeft (blockLoadEnd step t g) = true ↔ ¬g.bc - 1 = 0 := by
  have hbc : (blockLoadEnd step t g).bc = g.bc - 1 := Regs.bc_setBc (g.bc - 1) g
  rw [bcLeft, hbc, bne_iff_ne]

/-- Settles O12: each of these instructions is one `blockLoad`, alone or repeated while `BC` is not 0. -/
theorem blockTransfers : Obligations.BlockTransfers := by
  intro s hs hread hwrite g t k after again T
  obtain ⟨hram, hflash, -⟩ := Consistent.parts hs
  have hafter (step : Word) : blockLoadEnd step t g = after step := blockLoadEnd_eq step t g
  have round (step : Word) : Does s (blockLoad step s) () (after step) [(g.de, t)] 0 :=
    hafter step ▸ blockLoad_does hram hflash hread hwrite step
  have more (step : Word) : bcLeft (after step) = true ↔ ¬g.bc - 1 = 0 :=
    hafter step ▸ bcLeft_blockLoadEnd step t g
  exact ⟨(round 1).completes_finish rfl, (round (-1)).completes_finish rfl,
    completes_repeatWhile (round 1) (more 1) rfl, completes_repeatWhile (round (-1)) (more (-1)) rfl⟩

/-! ## The block searches -/

theorem sub8_false_fst (a t : Byte) : (sub8 a t false).1 = a - t := by
  apply BitVec.eq_of_toNat_eq
  simp only [sub8, BitVec.toNat_ofInt, BitVec.toNat_sub, Bool.toNat_false]
  omega

theorem sub8_false_h (a t : Byte) : (sub8 a t false).2.h = decide (a.toNat % 16 < t.toNat % 16) := by
  simp only [sub8, decide_eq_decide, Bool.toNat_false]
  omega

theorem blockCompareFlags_eq (a t : Byte) (bc : Word) (k : Flags) :
    blockCompareFlags a t bc k =
      { k with s := (a - t).getLsbD 7, z := a == t, h := decide (a.toNat % 16 < t.toNat % 16), pv := bc != 0, n := true
               x := (a - t - (if decide (a.toNat % 16 < t.toNat % 16) then 1 else 0)).getLsbD 3
               y := (a - t - (if decide (a.toNat % 16 < t.toNat % 16) then 1 else 0)).getLsbD 1 } := by
  have hz : (a - t == 0) = (a == t) := by rw [Bool.eq_iff_iff, beq_iff_eq, beq_iff_eq, sub_eq_zero]
  simp only [blockCompareFlags, sub8_false_fst, sub8_false_h, hz]

theorem blockCompareEnd_eq (step : Word) (t : Byte) (g : Regs) :
    blockCompareEnd step t g =
      { (g.setHl (g.hl + step)).setBc (g.bc - 1) with f := (blockCompareFlags g.a t (g.bc - 1) g.flags).byte } := by
  simp only [blockCompareEnd, Regs.bc_setBc]
  rfl

theorem searchOn_blockCompareEnd (step : Word) (t : Byte) (g : Regs) :
    searchOn (blockCompareEnd step t g) = true ↔ ¬(g.bc - 1 = 0 ∨ g.a = t) := by
  have hbc : (blockCompareEnd step t g).bc = g.bc - 1 := Regs.bc_setBc (g.bc - 1) g
  have hz : (blockCompareEnd step t g).flags.z = (g.a == t) := by
    rw [blockCompareEnd_eq, blockCompareFlags_eq]
    exact congrArg Flags.z (Flags.ofByte_byte _)
  simp [searchOn, hbc, hz]

/-- Settles O13: each of these instructions is one `blockCompare`, alone or repeated while `BC` is not 0 and the byte
differs from `A`. -/
theorem blockSearches : Obligations.BlockSearches := by
  intro s hread g t k half n after stop again T
  have hafter (step : Word) : blockCompareEnd step t g = after step := by
    rw [blockCompareEnd_eq, blockCompareFlags_eq]
    rfl
  have round (step : Word) : Does s (blockCompare step s) () (after step) [] 0 :=
    hafter step ▸ blockCompare_does hread step
  have more (step : Word) : searchOn (after step) = true ↔ ¬stop :=
    hafter step ▸ searchOn_blockCompareEnd step t g
  exact ⟨(round 1).completes_finish rfl, (round (-1)).completes_finish rfl,
    completes_repeatWhile (round 1) (more 1) rfl, completes_repeatWhile (round (-1)) (more (-1)) rfl⟩

end Sys2Proof.Machine
end

section
/-! PROOFS of the family 43_arith8: the accumulator operations, and INC and DEC of a byte. -/

namespace Sys2Proof.Machine

/-! ## The accumulator operations in all their forms -/

section
variable (op : AluOp) (s : State)

theorem exec_aluReg (r : Reg8) : exec (aluReg op r) s = done 4 (aluStep op (s.regs.get8 r) s) := by cases op <;> rfl

theorem exec_aluImm (n : Byte) : exec (aluImm op n) s = done 7 (aluStep op n s) := by cases op <;> rfl

theorem exec_aluMem : exec (aluMem op) s = (aluFrom op s.regs.hl s).finish 7 := by cases op <;> rfl

theorem exec_aluIdx (x : Index) (d : Byte) :
    exec (aluIdx op x d) s = (aluFrom op (indexAddr x d s) s).finish 19 := by
  cases op <;> cases x <;> rfl

theorem exec_aluHi (x : Index) : exec (aluHi op x) s = done 8 (aluStep op (hi (s.regs.getXY x)) s) := by
  cases op <;> cases x <;> rfl

theorem exec_aluLo (x : Index) : exec (aluLo op x) s = done 8 (aluStep op (lo (s.regs.getXY x)) s) := by
  cases op <;> cases x <;> rfl

end

/-- Settles O14: a form is one `aluStep` on its operand, after a read where the operand is in memory. -/
theorem accumulatorForms : Obligations.AccumulatorForms := fun op s =>
  ⟨fun r => completes_of_regs (exec_aluReg op s r),
   fun n => completes_of_regs (exec_aluImm op s n),
   fun h => (aluFrom_does op h).completes_finish (exec_aluMem op s),
   fun x d h => (aluFrom_does op h).completes_finish (exec_aluIdx op s x d),
   fun x => completes_of_regs (exec_aluHi op s x),
   fun x => completes_of_regs (exec_aluLo op s x)⟩

/-! ## What the accumulator operations compute -/

theorem getLsbD_seven (v : Byte) : v.getLsbD 7 = decide (128 ≤ v.toNat) :=
  (BitVec.msb_eq_getLsbD_last v).symm.trans (BitVec.msb_eq_decide v)

theorem toNat_ite_one_zero (c : Bool) : (if c then 1 else 0 : Byte).toNat = c.toNat := by cases c <;> rfl

theorem add8_fst (a v : Byte) (c : Bool) : (add8 a v c).1 = a + v + (if c then 1 else 0) := by
  apply BitVec.eq_of_toNat_eq
  simp only [add8, BitVec.toNat_ofNat, BitVec.toNat_add, toNat_ite_one_zero]
  omega

theorem sub8_fst (a v : Byte) (c : Bool) : (sub8 a v c).1 = a - v - (if c then 1 else 0) := by
  have hc : c.toNat ≤ 1 := Bool.toNat_le c
  apply BitVec.eq_of_toNat_eq
  simp only [sub8, BitVec.toNat_ofInt, BitVec.toNat_sub, toNat_ite_one_zero]
  omega

/-- Two operands of one sign and a result of the other: the signed sum has left the range of a byte. -/
theorem add8_pv (a v : Byte) (c : Bool) : (add8 a v c).2.pv =
    decide (a.toInt + v.toInt + c.toNat < -128 ∨ 127 < a.toInt + v.toInt + c.toNat) := by
  have hc : c.toNat ≤ 1 := Bool.toNat_le c
  rw [Bool.eq_iff_iff]
  simp only [add8, getLsbD_seven, BitVec.toInt_eq_toNat_cond, BitVec.toNat_ofNat, Bool.and_eq_true, beq_iff_eq,
    bne_iff_ne, ne_eq, decide_eq_decide, decide_eq_true_eq]
  omega

/-- Two operands of unlike signs and a result of the sign of the second: the signed difference has left the range of a
byte. -/
theorem sub8_pv (a v : Byte) (c : Bool) : (sub8 a v c).2.pv =
    decide (a.toInt - v.toInt - c.toNat < -128 ∨ 127 < a.toInt - v.toInt - c.toNat) := by
  have hc : c.toNat ≤ 1 := Bool.toNat_le c
  rw [Bool.eq_iff_iff]
  simp only [sub8, getLsbD_seven, BitVec.toInt_eq_toNat_cond, BitVec.toNat_ofInt, Bool.and_eq_true,
    bne_iff_ne, ne_eq, decide_eq_decide, decide_eq_true_eq]
  omega

theorem sub8_h (a v : Byte) (c : Bool) : (sub8 a v c).2.h = decide (a.toNat % 16 < v.toNat % 16 + c.toNat) := by
  simp only [sub8, decide_eq_decide]
  omega

theorem sub8_c (a v : Byte) (c : Bool) : (sub8 a v c).2.c = decide (a.toNat < v.toNat + c.toNat) := by
  simp only [sub8, decide_eq_decide]
  omega

theorem logicFlags_eq (r : Byte) (h : Bool) : logicFlags r h =
    { s := r.getLsbD 7, z := r == 0, y := r.getLsbD 5, h := h, x := r.getLsbD 3, pv := r.cpop.toNat % 2 == 0,
      n := false, c := false } := by
  rw [← parity_cpop]
  rfl

/-- Settles O15: the eight operations are sums, differences and bitwise results. -/
theorem aluMeaning : Obligations.AluMeaning := by
  intro a v c one sum difference logical
  have add (c : Bool) : add8 a v c = sum c := by
    simp only [sum, one, ← add8_fst, ← add8_pv]
    rfl
  have sub (c : Bool) : sub8 a v c = difference c := by
    simp only [difference, one, ← sub8_fst, ← sub8_pv, ← sub8_h, ← sub8_c]
    rfl
  have logic (r : Byte) (h : Bool) : (r, logicFlags r h) = logical r h := by rw [logicFlags_eq]
  exact ⟨add false, add c, sub false, sub c, logic _ true, logic _ false, logic _ false,
    congrArg (fun r : Byte × Flags => (a, r.2.withXY v)) (sub false)⟩

/-! ## INC and DEC of a byte -/

theorem lowNibble_beq (v : Byte) (n : BitVec 4) : (lowNibble v == n) = (v.toNat % 16 == n.toNat) := by
  rw [Bool.eq_iff_iff, beq_iff_eq, beq_iff_eq, ← BitVec.toNat_inj]
  simp [lowNibble]

section
variable {i : Instr} {s : State} {T : Nat}

theorem completes_incWith (get : Regs → Byte) (set : Byte → Regs → Regs)
    (he : exec i s = done T (onRegs (incWith get set) s)) :
    completes i s { set (get s.regs + 1) s.regs with f := (inc8 (get s.regs) s.regs.flags).2.byte } [] T :=
  completes_regs he

theorem completes_decWith (get : Regs → Byte) (set : Byte → Regs → Regs)
    (he : exec i s = done T (onRegs (decWith get set) s)) :
    completes i s { set (get s.regs - 1) s.regs with f := (dec8 (get s.regs) s.regs.flags).2.byte } [] T :=
  completes_regs he

/-- A byte of memory read, changed and written back; the flags, written in between, leave its address as it is. -/
theorem completes_modifyFlagsFirst {k : Byte → Flags → Byte × Flags} (loc : State → Word)
    (hloc : ∀ t, t.regs.hl = s.regs.hl → t.regs.ix = s.regs.ix → t.regs.iy = s.regs.iy → loc t = loc s)
    (hs : Consistent s = true) (hread : readable s (loc s) = true) (hwrite : writable s (loc s) = true)
    (he : exec i s = (modifyFlagsFirst loc k s).finish T) :
    completes i s { s.regs with f := (k (byteAt s (loc s)) s.regs.flags).2.byte }
      [(loc s, (k (byteAt s (loc s)) s.regs.flags).1)] T :=
  have ⟨hram, hflash, _⟩ := Consistent.parts hs
  (modifyFlagsFirst_does hram hflash hloc k hread hwrite).completes_finish he

theorem completes_modifyIndexed {k : Byte → Flags → Byte × Flags} (x : Index) (d : Byte) (hs : Consistent s = true)
    (hread : readable s (indexAddr x d s) = true) (hwrite : writable s (indexAddr x d s) = true)
    (he : exec i s = (modifyFlagsFirst (fun _ => indexAddr x d s) k s).finish T) :
    completes i s { s.regs with f := (k (byteAt s (indexAddr x d s)) s.regs.flags).2.byte }
      [(indexAddr x d s, (k (byteAt s (indexAddr x d s)) s.regs.flags).1)] T :=
  completes_modifyFlagsFirst (fun _ => indexAddr x d s) (fun _ _ _ _ => rfl) hs hread hwrite he

end

/-- Settles O16: each form is one `inc8` or `dec8` of its register or of its byte of memory. -/
theorem incDec8 : Obligations.IncDec8 := by
  intro s g flags up down
  -- `up` and `down` say the half carry of the low four bits as a number
  have hup (v : Byte) : (inc8 v g.flags).2.byte = up v :=
    congrArg (flags (v + 1) · (v == 0x7F) false) (lowNibble_beq v 0xF)
  have hdown (v : Byte) : (dec8 v g.flags).2.byte = down v :=
    congrArg (flags (v - 1) · (v == 0x80) true) (lowNibble_beq v 0x0)
  simp only [← hup, ← hdown]
  exact ⟨fun r => completes_incWith (Regs.get8 r) (Regs.set8 r) rfl,
    fun r => completes_decWith (Regs.get8 r) (Regs.set8 r) rfl,
    completes_incWith (Regs.getHalf .ix .hi) (Regs.setHalf .ix .hi) rfl,
    completes_incWith (Regs.getHalf .ix .lo) (Regs.setHalf .ix .lo) rfl,
    completes_incWith (Regs.getHalf .iy .hi) (Regs.setHalf .iy .hi) rfl,
    completes_incWith (Regs.getHalf .iy .lo) (Regs.setHalf .iy .lo) rfl,
    completes_decWith (Regs.getHalf .ix .hi) (Regs.setHalf .ix .hi) rfl,
    completes_decWith (Regs.getHalf .ix .lo) (Regs.setHalf .ix .lo) rfl,
    completes_decWith (Regs.getHalf .iy .hi) (Regs.setHalf .iy .hi) rfl,
    completes_decWith (Regs.getHalf .iy .lo) (Regs.setHalf .iy .lo) rfl,
    fun hs hread hwrite =>
      ⟨completes_modifyFlagsFirst (k := inc8) atHl (fun _ hhl _ _ => hhl) hs hread hwrite rfl,
       completes_modifyFlagsFirst (k := dec8) atHl (fun _ hhl _ _ => hhl) hs hread hwrite rfl⟩,
    fun d hs =>
      ⟨fun hread hwrite =>
        ⟨completes_modifyIndexed (k := inc8) .ix d hs hread hwrite rfl,
         completes_modifyIndexed (k := dec8) .ix d hs hread hwrite rfl⟩,
       fun hread hwrite =>
        ⟨completes_modifyIndexed (k := inc8) .iy d hs hread hwrite rfl,
         completes_modifyIndexed (k := dec8) .iy d hs hread hwrite rfl⟩⟩⟩

end Sys2Proof.Machine
end

section
/-! PROOFS of the family 44_cpu_control: DAA, by its arithmetic and by its purpose, and the control instructions. -/

namespace Sys2Proof.Machine

/-! ## DAA after an addition or a subtraction of packed BCD -/

theorem toNat_decide (p : Prop) [Decidable p] : (decide p).toNat = if p then 1 else 0 := Bool.cond_decide p 1 0

theorem daaCorrection_toNat (low high : Bool) :
    ((if low then 0x06 else 0x00) ||| (if high then 0x60 else 0x00) : Byte).toNat =
      6 * low.toNat + 96 * high.toNat := by
  cases low <;> cases high <;> rfl

theorem daaResult_carry (a : Byte) (k : Flags) : (daaResult a k).2.c = (k.c || decide (0x99 < a.toNat)) := rfl

theorem daaResult_toNat_add {k : Flags} (hn : k.n = false) (a : Byte) : (daaResult a k).1.toNat =
    (a.toNat + (6 * (k.h || decide (9 < a.toNat % 16)).toNat + 96 * (daaResult a k).2.c.toNat)) % 256 := by
  rw [← daaCorrection_toNat, ← BitVec.toNat_add]
  simp only [daaResult, hn]
  rfl

theorem daaResult_toNat_sub {k : Flags} (hn : k.n = true) (a : Byte) : (daaResult a k).1.toNat =
    (256 - (6 * (k.h || decide (9 < a.toNat % 16)).toNat + 96 * (daaResult a k).2.c.toNat) + a.toNat) % 256 := by
  rw [← daaCorrection_toNat, ← BitVec.toNat_sub (n := 8)]
  simp only [daaResult, hn]
  rfl

theorem add8_toNat (a v : Byte) (c : Bool) : (add8 a v c).1.toNat = (a.toNat + v.toNat + c.toNat) % 256 := rfl

theorem sub8_toNat (a v : Byte) (c : Bool) :
    (sub8 a v c).1.toNat = (256 + a.toNat - (v.toNat + c.toNat)) % 256 := by
  have hc : c.toNat ≤ 1 := Bool.toNat_le c
  simp only [sub8, BitVec.toNat_ofInt]
  omega

/-- Packed BCD: both digits are decimal. -/
def IsBcd (v : Byte) : Prop := v.toNat / 16 < 10 ∧ v.toNat % 16 < 10

/-- The number a packed BCD byte stands for. -/
def bcdValue (v : Byte) : Nat := 10 * (v.toNat / 16) + v.toNat % 16

/-- The carry out of the sum of the low decimal digits. -/
def lowCarry (a v : Byte) (c : Bool) : Bool := decide (9 < a.toNat % 16 + v.toNat % 16 + c.toNat)

/-- The borrow of the difference of the low decimal digits. -/
def lowBorrow (a v : Byte) (c : Bool) : Bool := decide (a.toNat % 16 < v.toNat % 16 + c.toNat)

section
variable {a v : Byte} (ha : IsBcd a) (hv : IsBcd v) (c : Bool)
include ha hv

/-- After an addition DAA corrects the low digit just when its decimal sum carries. -/
theorem daa_low_add8 : ((add8 a v c).2.h || decide (9 < (add8 a v c).1.toNat % 16)) = lowCarry a v c := by
  obtain ⟨-, ha0⟩ := ha
  obtain ⟨-, hv0⟩ := hv
  have hc : c.toNat ≤ 1 := Bool.toNat_le c
  rw [add8_toNat, lowCarry, Bool.eq_iff_iff]
  simp only [add8, Bool.or_eq_true, decide_eq_true_eq]
  omega

/-- After an addition DAA carries just when the decimal sum of the high digits does. -/
theorem daa_carry_add8 : (daaResult (add8 a v c).1 (add8 a v c).2).2.c =
    decide (9 < a.toNat / 16 + v.toNat / 16 + (lowCarry a v c).toNat) := by
  obtain ⟨ha1, ha0⟩ := ha
  obtain ⟨hv1, hv0⟩ := hv
  have hc : c.toNat ≤ 1 := Bool.toNat_le c
  rw [daaResult_carry, add8_toNat, lowCarry, toNat_decide, Bool.eq_iff_iff]
  simp only [add8, Bool.or_eq_true, decide_eq_true_eq]
  split <;> omega

/-- After a subtraction DAA corrects the low digit just when its decimal difference borrows. -/
theorem daa_low_sub8 : ((sub8 a v c).2.h || decide (9 < (sub8 a v c).1.toNat % 16)) = lowBorrow a v c := by
  obtain ⟨-, ha0⟩ := ha
  obtain ⟨-, hv0⟩ := hv
  have hc : c.toNat ≤ 1 := Bool.toNat_le c
  rw [sub8_h, sub8_toNat, lowBorrow, Bool.eq_iff_iff]
  simp only [Bool.or_eq_true, decide_eq_true_eq]
  omega

/-- After a subtraction DAA borrows just when the decimal difference of the high digits does. -/
theorem daa_carry_sub8 : (daaResult (sub8 a v c).1 (sub8 a v c).2).2.c =
    decide (a.toNat / 16 < v.toNat / 16 + (lowBorrow a v c).toNat) := by
  obtain ⟨ha1, ha0⟩ := ha
  obtain ⟨hv1, hv0⟩ := hv
  have hc : c.toNat ≤ 1 := Bool.toNat_le c
  rw [daaResult_carry, sub8_toNat, sub8_c, lowBorrow, toNat_decide, Bool.eq_iff_iff]
  simp only [Bool.or_eq_true, decide_eq_true_eq]
  split <;> omega

theorem daa_add8 :
    let r := daaResult (add8 a v c).1 (add8 a v c).2
    IsBcd r.1 ∧ bcdValue r.1 + 100 * r.2.c.toNat = bcdValue a + bcdValue v + c.toNat := by
  have hr := daaResult_toNat_add (k := (add8 a v c).2) rfl (add8 a v c).1
  have hlow : (lowCarry a v c).toNat = _ := toNat_decide _
  have hhigh := (congrArg Bool.toNat (daa_carry_add8 ha hv c)).trans (toNat_decide _)
  rw [daa_low_add8 ha hv, add8_toNat] at hr
  generalize daaResult (add8 a v c).1 (add8 a v c).2 = r at *
  obtain ⟨ha1, ha0⟩ := ha
  obtain ⟨hv1, hv0⟩ := hv
  have hc : c.toNat ≤ 1 := Bool.toNat_le c
  -- the correction, 6 or 96 at a carry, makes a digit of each sum
  have hdigits : r.1.toNat = 16 * (a.toNat / 16 + v.toNat / 16 + (lowCarry a v c).toNat - 10 * r.2.c.toNat) +
      (a.toNat % 16 + v.toNat % 16 + c.toNat - 10 * (lowCarry a v c).toNat) := by
    split at hlow <;> split at hhigh <;> omega
  clear hr
  simp only [IsBcd, bcdValue]
  split at hlow <;> split at hhigh <;> omega

theorem daa_sub8 :
    let r := daaResult (sub8 a v c).1 (sub8 a v c).2
    IsBcd r.1 ∧ bcdValue r.1 + bcdValue v + c.toNat = bcdValue a + 100 * r.2.c.toNat := by
  have hr := daaResult_toNat_sub (k := (sub8 a v c).2) rfl (sub8 a v c).1
  have hlow : (lowBorrow a v c).toNat = _ := toNat_decide _
  have hhigh := (congrArg Bool.toNat (daa_carry_sub8 ha hv c)).trans (toNat_decide _)
  rw [daa_low_sub8 ha hv, sub8_toNat] at hr
  generalize daaResult (sub8 a v c).1 (sub8 a v c).2 = r at *
  obtain ⟨ha1, ha0⟩ := ha
  obtain ⟨hv1, hv0⟩ := hv
  have hc : c.toNat ≤ 1 := Bool.toNat_le c
  -- the correction, 6 or 96 at a borrow, makes a digit of each difference
  have hdigits : r.1.toNat = 16 * (10 * r.2.c.toNat + a.toNat / 16 - (v.toNat / 16 + (lowBorrow a v c).toNat)) +
      (10 * (lowBorrow a v c).toNat + a.toNat % 16 - (v.toNat % 16 + c.toNat)) := by
    split at hlow <;> split at hhigh <;> omega
  clear hr
  simp only [IsBcd, bcdValue]
  split at hlow <;> split at hhigh <;> omega

end

/-- Settles O17: DAA corrects each digit just when its decimal sum carries, or its decimal difference borrows. -/
theorem daaAdjustsBcd : Obligations.DaaAdjustsBcd := by
  intro a v c bcd value ha hv
  exact ⟨daa_add8 ha hv c, daa_sub8 ha hv c⟩

/-! ## The control instructions -/

theorem daaResult_eq (a : Byte) (k : Flags) :
    let low := a.toNat % 16
    let corr : Byte := (if k.h ∨ 9 < low then 0x06 else 0) ||| (if k.c ∨ 0x99 < a.toNat then 0x60 else 0)
    let res := if k.n then a - corr else a + corr
    daaResult a k =
      (res, { s := res.getLsbD 7, z := res == 0, y := res.getLsbD 5,
              h := if k.n then k.h && decide (low < 6) else decide (9 < low), x := res.getLsbD 3,
              pv := res.cpop.toNat % 2 == 0, n := k.n, c := k.c || decide (0x99 < a.toNat) }) := by
  intro low corr res
  rw [← parity_cpop]
  simp [daaResult, Flags.szxy, res, corr, low]

theorem cplResult_eq (a : Byte) (k : Flags) :
    cplResult a k = (~~~a, { k with h := true, n := true, y := !a.getLsbD 5, x := !a.getLsbD 3 }) := by
  simp [cplResult, Flags.withXY]

theorem sub8_zero (a : Byte) : sub8 0 a false =
    (0 - a, { s := (0 - a).getLsbD 7, z := a == 0, y := (0 - a).getLsbD 5, h := decide (0 < a.toNat % 16),
              x := (0 - a).getLsbD 3, pv := a == 0x80, n := true, c := a != 0 }) := by
  revert a
  decide

/-- Settles O18: each of these meanings is one change of the register file, or nothing; HALT and EI set a control flag. -/
theorem controlGroup : Obligations.ControlGroup := by
  intro s g k negated low corr res
  have hneg {i : Instr} (h : exec i s = done 8 (negate s)) : completes i s negated [] 8 := by
    rw [negate, sub8_zero] at h
    exact completes_of_regs h
  exact ⟨completes_of_regs (congrArg (fun r => done 4 (setAccFlags r s)) (daaResult_eq g.a k)),
    completes_of_regs (congrArg (fun r => done 4 (setAccFlags r s)) (cplResult_eq g.a k)),
    hneg rfl, fun _ => hneg rfl,
    completes_of_regs rfl, completes_of_regs rfl,
    completes_nop rfl, fun _ => completes_nop rfl, fun _ => completes_nop rfl, fun _ => completes_nop rfl,
    fun _ => completes_nop rfl, fun _ _ => completes_nop rfl,
    rfl, rfl,
    completes_of_regs rfl, completes_of_regs rfl, completes_of_regs rfl, completes_of_regs rfl,
    fun _ => completes_of_regs rfl, completes_of_regs rfl, completes_of_regs rfl⟩

end Sys2Proof.Machine
end

section
/-! PROOFS of the family 45_arith16: the 16-bit additions and subtractions, and INC and DEC of a 16-bit register. -/

namespace Sys2Proof.Machine

/-! ## What the 16-bit operations compute -/

theorem getLsbD_fifteen (v : Word) : v.getLsbD 15 = decide (32768 ≤ v.toNat) :=
  (BitVec.msb_eq_getLsbD_last v).symm.trans (BitVec.msb_eq_decide v)

theorem toNat_ite_one_zero_word (c : Bool) : (if c then 1 else 0 : Word).toNat = c.toNat := by cases c <;> rfl

theorem add16_eq (a b : Word) (k : Flags) : add16 a b k =
    (a + b, { k with h := decide (4095 < a.toNat % 4096 + b.toNat % 4096), n := false,
                     c := decide (65535 < a.toNat + b.toNat), y := (a + b).getLsbD 13,
                     x := (a + b).getLsbD 11 }) := rfl

theorem adc16_fst (a b : Word) (c : Bool) : (adc16 a b c).1 = a + b + (if c then 1 else 0) := by
  apply BitVec.eq_of_toNat_eq
  simp only [adc16, BitVec.toNat_ofNat, BitVec.toNat_add, toNat_ite_one_zero_word]
  omega

theorem sbc16_fst (a b : Word) (c : Bool) : (sbc16 a b c).1 = a - b - (if c then 1 else 0) := by
  have hc : c.toNat ≤ 1 := Bool.toNat_le c
  apply BitVec.eq_of_toNat_eq
  simp only [sbc16, BitVec.toNat_ofInt, BitVec.toNat_sub, toNat_ite_one_zero_word]
  omega

/-- Two operands of one sign and a result of the other: the signed sum has left the range of a word. -/
theorem adc16_pv (a b : Word) (c : Bool) : (adc16 a b c).2.pv =
    decide (a.toInt + b.toInt + c.toNat < -32768 ∨ 32767 < a.toInt + b.toInt + c.toNat) := by
  have hc : c.toNat ≤ 1 := Bool.toNat_le c
  rw [Bool.eq_iff_iff]
  simp only [adc16, getLsbD_fifteen, BitVec.toInt_eq_toNat_cond, BitVec.toNat_ofNat, Bool.and_eq_true, beq_iff_eq,
    bne_iff_ne, ne_eq, decide_eq_decide, decide_eq_true_eq]
  omega

/-- Two operands of unlike signs and a result of the sign of the second: the signed difference has left the range of a
word. -/
theorem sbc16_pv (a b : Word) (c : Bool) : (sbc16 a b c).2.pv =
    decide (a.toInt - b.toInt - c.toNat < -32768 ∨ 32767 < a.toInt - b.toInt - c.toNat) := by
  have hc : c.toNat ≤ 1 := Bool.toNat_le c
  rw [Bool.eq_iff_iff]
  simp only [sbc16, getLsbD_fifteen, BitVec.toInt_eq_toNat_cond, BitVec.toNat_ofInt, Bool.and_eq_true,
    bne_iff_ne, ne_eq, decide_eq_decide, decide_eq_true_eq]
  omega

theorem sbc16_h (a b : Word) (c : Bool) :
    (sbc16 a b c).2.h = decide (a.toNat % 4096 < b.toNat % 4096 + c.toNat) := by
  simp only [sbc16, decide_eq_decide]
  omega

theorem sbc16_c (a b : Word) (c : Bool) : (sbc16 a b c).2.c = decide (a.toNat < b.toNat + c.toNat) := by
  simp only [sbc16, decide_eq_decide]
  omega

theorem adc16_eq (a b : Word) (c : Bool) :
    let r := a + b + (if c then 1 else 0)
    adc16 a b c =
      (r, { s := r.getLsbD 15, z := r == 0, y := r.getLsbD 13,
            h := decide (4095 < a.toNat % 4096 + b.toNat % 4096 + c.toNat), x := r.getLsbD 11,
            pv := decide (a.toInt + b.toInt + c.toNat < -32768 ∨ 32767 < a.toInt + b.toInt + c.toNat), n := false,
            c := decide (65535 < a.toNat + b.toNat + c.toNat) }) := by
  rw [← adc16_fst, ← adc16_pv]
  rfl

theorem sbc16_eq (a b : Word) (c : Bool) :
    let r := a - b - (if c then 1 else 0)
    sbc16 a b c =
      (r, { s := r.getLsbD 15, z := r == 0, y := r.getLsbD 13,
            h := decide (a.toNat % 4096 < b.toNat % 4096 + c.toNat), x := r.getLsbD 11,
            pv := decide (a.toInt - b.toInt - c.toNat < -32768 ∨ 32767 < a.toInt - b.toInt - c.toNat), n := true,
            c := decide (a.toNat < b.toNat + c.toNat) }) := by
  rw [← sbc16_fst, ← sbc16_pv, ← sbc16_h, ← sbc16_c]
  rfl

/-! ## The instructions -/

/-- A meaning that writes a computed word and its flags, said by what the computation answers. -/
theorem completes_wordResult {i : Instr} {s : State} {T : Nat} (set : Word → Regs → Regs) {r : Word × Flags} {v : Word}
    {k : Flags} (hr : r = (v, k)) (he : exec i s = done T (onRegs (fun g => (set r.1 g).setFlags r.2) s)) :
    completes i s { set v s.regs with f := k.byte } [] T := by
  subst hr
  exact completes_regs he

/-- Settles O19: each form writes what `add16`, `adc16` or `sbc16` answers to its destination and to `F`. -/
theorem addSub16 : Obligations.AddSub16 := fun _ =>
  ⟨fun _ => completes_wordResult Regs.setHl (add16_eq _ _ _) rfl,
   fun _ => completes_wordResult (Regs.setXY .ix) (add16_eq _ _ _) rfl,
   fun _ => completes_wordResult (Regs.setXY .iy) (add16_eq _ _ _) rfl,
   fun _ => completes_wordResult Regs.setHl (adc16_eq _ _ _) rfl,
   fun _ => completes_wordResult Regs.setHl (sbc16_eq _ _ _) rfl⟩

/-- Settles O20: each form is one change of the register file, which writes its register alone. -/
theorem incDec16 : Obligations.IncDec16 := fun _ =>
  ⟨fun _ => completes_of_regs rfl, completes_of_regs rfl, completes_of_regs rfl, completes_of_regs rfl,
   fun _ => completes_of_regs rfl, completes_of_regs rfl, completes_of_regs rfl, completes_of_regs rfl⟩

end Sys2Proof.Machine
end

section
/-! PROOFS of the family 46_rotate_shift: the rotates and shifts in all their forms, and the digit rotates. -/

namespace Sys2Proof.Machine

/-! ## What the rotates and shifts compute -/

theorem extractLsb'_append_bit (v : Byte) (b : BitVec 1) :
    (v.extractLsb' 0 7 ++ b : Byte) = v <<< 1 ||| b.setWidth 8 :=
  have hv : (v.extractLsb' 0 7).setWidth 8 <<< 1 = v <<< 1 := by revert v; decide
  calc (v.extractLsb' 0 7 ++ b : Byte)
    _ = (v.extractLsb' 0 7 ++ b).setWidth 8 := (BitVec.setWidth_eq _).symm
    _ = (v.extractLsb' 0 7).setWidth 8 <<< 1 ||| b.setWidth 8 := BitVec.setWidth_append_eq_shiftLeft_setWidth_or
    _ = v <<< 1 ||| b.setWidth 8 := by rw [hv]

theorem bit_append_extractLsb' (v : Byte) (b : BitVec 1) :
    (b ++ v.extractLsb' 1 7 : Byte) = v >>> 1 ||| b.setWidth 8 <<< 7 :=
  have hv : (v.extractLsb' 1 7).setWidth 8 = v >>> 1 := by revert v; decide
  calc (b ++ v.extractLsb' 1 7 : Byte)
    _ = (b ++ v.extractLsb' 1 7).setWidth 8 := (BitVec.setWidth_eq _).symm
    _ = b.setWidth 8 <<< 7 ||| (v.extractLsb' 1 7).setWidth 8 := BitVec.setWidth_append_eq_shiftLeft_setWidth_or
    _ = v >>> 1 ||| b.setWidth 8 <<< 7 := by rw [hv, BitVec.or_comm]

section
variable (v : Byte) (c : Bool) {b : BitVec 1} {r : Byte}

/-- The byte moved up by one place, the bit `b` shifted in and bit 7 shifted out. -/
theorem moveUp_eq (hr : v <<< 1 ||| b.setWidth 8 = r) :
    ((v.extractLsb' 0 7 ++ b, v.getLsbD 7) : Byte × Bool) = (r, v.msb) :=
  congrArg (·, v.msb) ((extractLsb'_append_bit v b).trans hr)

/-- The byte moved down by one place, the bit `b` shifted in and bit 0 shifted out. -/
theorem moveDown_eq (hr : v >>> 1 ||| b.setWidth 8 <<< 7 = r) :
    ((b ++ v.extractLsb' 1 7, v.getLsbD 0) : Byte × Bool) = (r, v.getLsbD 0) :=
  congrArg (·, v.getLsbD 0) ((bit_append_extractLsb' v b).trans hr)

theorem rotResult_rlc : rotResult .rlc v c = (v.rotateLeft 1, v.msb) := moveUp_eq v (by revert v; decide)

theorem rotResult_rrc : rotResult .rrc v c = (v.rotateRight 1, v.getLsbD 0) := moveDown_eq v (by revert v; decide)

theorem rotResult_rl : rotResult .rl v c = (v <<< 1 ||| (if c then 0x01 else 0), v.msb) :=
  moveUp_eq v (by cases c <;> rfl)

theorem rotResult_rr : rotResult .rr v c = (v >>> 1 ||| (if c then 0x80 else 0), v.getLsbD 0) :=
  moveDown_eq v (by cases c <;> rfl)

theorem rotResult_sla : rotResult .sla v c = (v <<< 1, v.msb) := moveUp_eq v BitVec.or_zero

theorem rotResult_sra : rotResult .sra v c = (v.sshiftRight 1, v.getLsbD 0) := moveDown_eq v (by revert v; decide)

theorem rotResult_sll : rotResult .sll v c = (v <<< 1 ||| 1, v.msb) := moveUp_eq v rfl

theorem rotResult_srl : rotResult .srl v c = (v >>> 1, v.getLsbD 0) := moveDown_eq v BitVec.or_zero

end

theorem rotFlags_eq (r : Byte) (c : Bool) : rotFlags r c =
    { s := r.getLsbD 7, z := r == 0, y := r.getLsbD 5, h := false, x := r.getLsbD 3, pv := r.cpop.toNat % 2 == 0,
      n := false, c := c } := by
  rw [← parity_cpop]
  rfl

/-! ## The rotates and shifts in all their forms -/

section
variable (op : RotOp) (s : State)

theorem exec_rotReg (r : Reg8) : exec (rotReg op r) s = done 8 (rotateReg op r s) := by cases op <;> rfl

theorem exec_rotMem : exec (rotMem op) s = (rotateMem op atHl s).finish 15 := by cases op <;> rfl

theorem exec_rotIdx (x : Index) (d : Byte) :
    exec (rotIdx op x d) s = (rotateMem op (fun _ => indexAddr x d s) s).finish 23 := by
  cases op <;> cases x <;> rfl

theorem exec_rotIdxReg (x : Index) (d : Byte) (r : Reg8) :
    exec (rotIdxReg op x d r) s = (copyInto r (rotateMem op (fun _ => indexAddr x d s) s)).finish 23 := by
  cases op <;> cases x <;> rfl

end

theorem Regs.set8_f (r : Reg8) (v f : Byte) (g : Regs) :
    Regs.set8 r v { g with f := f } = { g.set8 r v with f := f } := by cases r <;> rfl

section
variable {i : Instr} {s : State} {T : Nat} {op : RotOp} {loc : State → Word}
  (hloc : ∀ t, t.regs = s.regs → loc t = loc s) (hs : Consistent s = true) (hread : readable s (loc s) = true)
  (hwrite : writable s (loc s) = true)
include hloc hs hread hwrite

theorem completes_rotateMem (he : exec i s = (rotateMem op loc s).finish T) :
    let v := rotResult op (byteAt s (loc s)) (carryIn s)
    completes i s { s.regs with f := (rotFlags v.1 v.2).byte } [(loc s, v.1)] T :=
  have ⟨hram, hflash, _⟩ := Consistent.parts hs
  (rotateMem_does hram hflash hloc op hread hwrite).completes_finish he

theorem completes_rotateMem_copyInto {r : Reg8} (he : exec i s = (copyInto r (rotateMem op loc s)).finish T) :
    let v := rotResult op (byteAt s (loc s)) (carryIn s)
    completes i s { s.regs.set8 r v.1 with f := (rotFlags v.1 v.2).byte } [(loc s, v.1)] T :=
  have ⟨hram, hflash, _⟩ := Consistent.parts hs
  completes_congr ((copyInto_does (rotateMem_does hram hflash hloc op hread hwrite) r).completes_finish he)
    (Regs.set8_f r _ _ s.regs) rfl rfl

end

/-- Settles O21: each form is one `rotateAcc`, `rotateReg` or `rotateMem`, the last one also with the byte copied into a
register. -/
theorem rotateForms : Obligations.RotateForms := by
  intro s g k rotated acc flags
  have hrot (op : RotOp) (v : Byte) : rotResult op v k.c = rotated op v := by
    cases op with
    | rlc => exact rotResult_rlc v k.c
    | rrc => exact rotResult_rrc v k.c
    | rl => exact rotResult_rl v k.c
    | rr => exact rotResult_rr v k.c
    | sla => exact rotResult_sla v k.c
    | sra => exact rotResult_sra v k.c
    | sll => exact rotResult_sll v k.c
    | srl => exact rotResult_srl v k.c
  have hflags (r : Byte × Bool) : (rotFlags r.1 r.2).byte = flags r := congrArg Flags.byte (rotFlags_eq r.1 r.2)
  have hacc {i : Instr} (op : RotOp) (he : exec i s = done 4 (rotateAcc op s)) : completes i s (acc op) [] 4 := by
    simp only [acc, ← hrot]
    exact completes_of_regs he
  simp only [← hrot, ← hflags]
  exact ⟨hacc .rlc rfl, hacc .rl rfl, hacc .rrc rfl, hacc .rr rfl,
    fun op r => completes_of_regs (exec_rotReg op s r),
    fun hs hread hwrite op =>
      completes_rotateMem (loc := atHl) (fun _ ht => congrArg Regs.hl ht) hs hread hwrite (exec_rotMem op s),
    fun x d hs hread hwrite op =>
      ⟨completes_rotateMem (loc := fun _ => indexAddr x d s) (fun _ _ => rfl) hs hread hwrite (exec_rotIdx op s x d),
       fun r => completes_rotateMem_copyInto (loc := fun _ => indexAddr x d s) (fun _ _ => rfl) hs hread hwrite
        (exec_rotIdxReg op s x d r)⟩⟩

/-! ## The digit rotates -/

theorem nibble_append (a b : BitVec 4) : (a ++ b : Byte) = a.setWidth 8 <<< 4 ||| b.setWidth 8 :=
  (BitVec.setWidth_eq (a ++ b)).symm.trans BitVec.setWidth_append_eq_shiftLeft_setWidth_or

theorem setWidth_lowNibble (v : Byte) : (lowNibble v).setWidth 8 = v &&& 0x0F := by
  revert v
  decide

theorem setWidth_highNibble (v : Byte) : (highNibble v).setWidth 8 = v >>> 4 := by
  revert v
  decide

theorem setWidth_lowNibble_shiftLeft (v : Byte) : (lowNibble v).setWidth 8 <<< 4 = v <<< 4 := by
  revert v
  decide

theorem setWidth_highNibble_shiftLeft (v : Byte) : (highNibble v).setWidth 8 <<< 4 = v &&& 0xF0 := by
  revert v
  decide

theorem leftDigits_eq (a t : Byte) :
    leftDigits a t = (t <<< 4 ||| (a &&& 0x0F), (a &&& (0xF0 : Byte)) ||| t >>> 4) := by
  rw [leftDigits, nibble_append, nibble_append, setWidth_lowNibble_shiftLeft, setWidth_highNibble_shiftLeft,
    setWidth_lowNibble, setWidth_highNibble]

theorem rightDigits_eq (a t : Byte) :
    rightDigits a t = (a <<< 4 ||| t >>> 4, (a &&& 0xF0) ||| (t &&& 0x0F)) := by
  rw [rightDigits, nibble_append, nibble_append, setWidth_lowNibble_shiftLeft, setWidth_highNibble_shiftLeft,
    setWidth_lowNibble, setWidth_highNibble]

theorem parityFlags_eq (v : Byte) (k : Flags) : parityFlags v k =
    { s := v.getLsbD 7, z := v == 0, y := v.getLsbD 5, h := false, x := v.getLsbD 3, pv := v.cpop.toNat % 2 == 0,
      n := false, c := k.c } := by
  rw [← parity_cpop]
  rfl

/-- Settles O22: each of the two is one `rotateDigits`. -/
theorem digitRotates : Obligations.DigitRotates := by
  intro s hs hread hwrite g t out
  obtain ⟨hram, hflash, -⟩ := Consistent.parts hs
  have rotated {i : Instr} {k : Byte → Byte → Byte × Byte} {m a : Byte} (hk : k g.a t = (m, a))
      (he : exec i s = (rotateDigits k s).finish 18) : completes i s (out a) [(g.hl, m)] 18 := by
    have h := (rotateDigits_does hram hflash k hread hwrite).completes_finish he
    rw [hk, parityFlags_eq] at h
    exact h
  exact ⟨rotated (leftDigits_eq g.a t) rfl, rotated (rightDigits_eq g.a t) rfl⟩

end Sys2Proof.Machine
end

section
/-! PROOFS of the family 47_bit: the bit tests, and SET and RES in all their forms. -/

namespace Sys2Proof.Machine

/-! ## The bit tests -/

/-- The sign is that of bit 7, since only a test of bit 7 can set it. -/
theorem bitFlags_eq (b : BitVec 3) (v : Byte) (y x : Bool) (k : Flags) : bitFlags b v y x k =
    { s := b == 7 && v.getLsbD 7, z := !v.getLsbD b.toNat, y := y, h := true, x := x, pv := !v.getLsbD b.toNat,
      n := false, c := k.c } := by
  have hs : (b == 7 && v.getLsbD b.toNat) = (b == 7 && v.getLsbD 7) := by
    by_cases hb : b = 7
    · rw [hb]
      rfl
    · rw [beq_false_of_ne hb, Bool.false_and, Bool.false_and]
  rw [bitFlags, hs]

section
variable {i : Instr} {s : State} {b : BitVec 3} {T : Nat}

/-- A meaning that draws one free value, besides an effect that leaves them alone. -/
theorem Effect.completesWith_draw {t : State} {g : Regs} {ws : List (Word × Byte)} {n : Nat} (h : Effect s t g ws n)
    (he : exec i s = done T { t with free := t.free + 1 }) : completesWith i s g ws (n + T) s.pio s.log 1 :=
  have e := h.thenT T
  have ⟨hpio, hdbg, hlog⟩ := e.agents
  have ⟨hfree, hcfg⟩ := e.model
  ⟨_, he, hpio, hlog, congrArg (· + 1) hfree,
    ⟨e.regs, e.stored, e.kept, e.mapping, e.control, ⟨rfl, hdbg, rfl⟩, ⟨rfl, hcfg⟩, e.time⟩⟩

theorem completes_bitIndexed {a : Word} (hread : readable s a = true) (he : exec i s = (bitIndexed b a s).finish T) :
    completes i s { s.regs with f := (bitFlags b (byteAt s a) (a.getLsbD 13) (a.getLsbD 11) s.regs.flags).byte } [] T :=
  (bitIndexed_does b hread).completes_finish he

/-- The byte at `HL` is tested: one free byte is drawn, and its bits 5 and 3 become `Y` and `X`. -/
theorem completesWith_bitAtHl (hread : readable s s.regs.hl = true) (he : exec i s = (bitAtHl b s).finish T) :
    let v := Config.freeByte s.free
    completesWith i s
      { s.regs with f := (bitFlags b (byteAt s s.regs.hl) (v.getLsbD 5) (v.getLsbD 3) s.regs.flags).byte } [] T
      s.pio s.log 1 := by
  obtain ⟨t, ht, e, -, -⟩ := Does.read hread
  have hfree : t.free = s.free := e.model.1
  rw [bitAtHl, ht] at he
  simpa [hfree, e.regs, Regs.setFlags] using (e.thenRegs fun g => g.setFlags (bitFlags b (byteAt s s.regs.hl)
    ((Config.freeByte t.free).getLsbD 5) ((Config.freeByte t.free).getLsbD 3) g.flags)).completesWith_draw he

end

/-- Settles O23: each form writes `bitFlags` of its byte to `F`, and only that of `(HL)` draws its `Y` and `X`. -/
theorem bitTests : Obligations.BitTests := by
  intro s b g out
  have hout (v : Byte) (y x : Bool) : { g with f := (bitFlags b v y x g.flags).byte } = out v y x :=
    congrArg (fun k : Flags => { g with f := k.byte }) (bitFlags_eq b v y x g.flags)
  simp only [← hout]
  exact ⟨fun _ => completes_of_regs rfl,
    fun hread => ⟨_, _, completesWith_bitAtHl hread rfl⟩,
    fun d =>
      ⟨fun hread => ⟨completes_bitIndexed hread rfl, fun _ => completes_bitIndexed hread rfl⟩,
       fun hread => ⟨completes_bitIndexed hread rfl, fun _ => completes_bitIndexed hread rfl⟩⟩⟩

/-! ## SET and RES -/

/-- A byte of memory read, changed and written back, its address a function of the registers. -/
theorem completes_changeBitMem {i : Instr} {s : State} {T : Nat} {k : Byte → Byte} (loc : State → Word)
    (hloc : ∀ t, t.regs = s.regs → loc t = loc s) (hs : Consistent s = true) (hread : readable s (loc s) = true)
    (hwrite : writable s (loc s) = true) (he : exec i s = (changeBitMem k loc s).finish T) :
    completes i s s.regs [(loc s, k (byteAt s (loc s)))] T :=
  have ⟨hram, hflash, _⟩ := Consistent.parts hs
  (changeBitMem_does hram hflash hloc k hread hwrite).completes_finish he

section
variable {i : Instr} {s : State} {T : Nat} {k : Byte → Byte} (x : Index) (d : Byte) (hs : Consistent s = true)
  (hread : readable s (indexAddr x d s) = true) (hwrite : writable s (indexAddr x d s) = true)
include hs hread hwrite

theorem completes_changeBitIndexed (he : exec i s = (changeBitMem k (fun _ => indexAddr x d s) s).finish T) :
    completes i s s.regs [(indexAddr x d s, k (byteAt s (indexAddr x d s)))] T :=
  completes_changeBitMem (fun _ => indexAddr x d s) (fun _ _ => rfl) hs hread hwrite he

theorem completes_changeBitIndexed_copyInto {r : Reg8}
    (he : exec i s = (copyInto r (changeBitMem k (fun _ => indexAddr x d s) s)).finish T) :
    completes i s (s.regs.set8 r (k (byteAt s (indexAddr x d s))))
      [(indexAddr x d s, k (byteAt s (indexAddr x d s)))] T :=
  have ⟨hram, hflash, _⟩ := Consistent.parts hs
  (copyInto_does (changeBitMem_does (loc := fun _ => indexAddr x d s) hram hflash (fun _ _ => rfl) k hread hwrite)
    r).completes_finish he

end

/-- Settles O24: each form is one `setBit` or `resBit` of its register or of its byte of memory, the undocumented ones
also with the byte copied into a register. -/
theorem setAndResetBits : Obligations.SetAndResetBits := fun _ b =>
  ⟨fun _ => ⟨completes_of_regs rfl, completes_of_regs rfl⟩,
   fun hs hread hwrite =>
     ⟨completes_changeBitMem (k := setBit b) atHl (fun _ ht => congrArg Regs.hl ht) hs hread hwrite rfl,
      completes_changeBitMem (k := resBit b) atHl (fun _ ht => congrArg Regs.hl ht) hs hread hwrite rfl⟩,
   fun d hs =>
     ⟨fun hread hwrite =>
       ⟨completes_changeBitIndexed (k := setBit b) .ix d hs hread hwrite rfl,
        completes_changeBitIndexed (k := resBit b) .ix d hs hread hwrite rfl,
        fun _ => ⟨completes_changeBitIndexed_copyInto (k := setBit b) .ix d hs hread hwrite rfl,
          completes_changeBitIndexed_copyInto (k := resBit b) .ix d hs hread hwrite rfl⟩⟩,
      fun hread hwrite =>
       ⟨completes_changeBitIndexed (k := setBit b) .iy d hs hread hwrite rfl,
        completes_changeBitIndexed (k := resBit b) .iy d hs hread hwrite rfl,
        fun _ => ⟨completes_changeBitIndexed_copyInto (k := setBit b) .iy d hs hread hwrite rfl,
          completes_changeBitIndexed_copyInto (k := resBit b) .iy d hs hread hwrite rfl⟩⟩⟩⟩

end Sys2Proof.Machine
end

section
/-! PROOFS of the family 48_jump_call_return: the jumps, and the calls and returns. -/

namespace Sys2Proof.Machine

/-! ## The jumps -/

/-- A jump that is taken on a condition, and costs the same either way. -/
theorem completes_setPc_if {i : Instr} {s : State} {taken : Bool} {a : Word} {T : Nat}
    (he : exec i s = done T (if taken then setPc a s else s)) :
    completes i s (if taken then { s.regs with pc := a } else s.regs) [] T := by
  cases taken
  · exact completes_nop he
  · exact completes_of_regs he

theorem completes_jumpIf {i : Instr} {s : State} {taken : Bool} {e : Byte} (he : exec i s = jumpIf taken e s) :
    completes i s (if taken then { s.regs with pc := s.regs.pc + e.signExtend 16 } else s.regs) []
      (if taken then 12 else 7) := by
  cases taken
  · exact completes_nop he
  · exact completes_of_regs he

/-- The count of DJNZ runs out exactly when it was 1. -/
theorem sub_one_ne_zero_iff (b : Byte) : (b - 1 != 0) = (b != 1) := by
  rw [Bool.eq_iff_iff, bne_iff_ne, bne_iff_ne, ne_eq, ne_eq, sub_eq_zero]

theorem completes_djnz (e : Byte) (s : State) :
    completes (.djnz e) s
      { (if s.regs.b != 1 then { s.regs with pc := s.regs.pc + e.signExtend 16 } else s.regs) with b := s.regs.b - 1 }
      [] (if s.regs.b = 1 then 8 else 13) := by
  let u := onRegs (fun g => { g with b := g.b - 1 }) s
  have he : exec (.djnz e) s = if s.regs.b - 1 != 0 then done 13 (relJump e u) else done 8 u := rfl
  rw [sub_one_ne_zero_iff] at he
  by_cases hb : s.regs.b = 1
  · have hstop : ¬(s.regs.b != 1) = true := by rw [bne_iff_ne, not_not]; exact hb
    rw [if_neg hstop] at he ⊢
    rw [if_pos hb]
    exact completes_of_regs he
  · have hgo : (s.regs.b != 1) = true := bne_iff_ne.mpr hb
    rw [if_pos hgo] at he ⊢
    rw [if_neg hb]
    exact completes_of_regs he

/-- Settles O25: each jump is one change of the register file, taken or not. -/
theorem jumps : Obligations.Jumps := fun s =>
  ⟨fun _ => completes_of_regs rfl, fun _ _ => completes_setPc_if rfl, fun _ => completes_of_regs rfl,
   fun _ => completes_jumpIf rfl, fun _ => completes_jumpIf rfl, fun _ => completes_jumpIf rfl,
   fun _ => completes_jumpIf rfl, completes_of_regs rfl, completes_of_regs rfl, completes_of_regs rfl,
   fun e => completes_djnz e s, fun _ => ⟨rfl, rfl, rfl, rfl, rfl, rfl, rfl, rfl⟩⟩

/-! ## The calls and returns -/

section
variable {i : Instr} {s : State} {T : Nat}

theorem completes_callTo {a : Word} (hs : Consistent s = true) (hhi : writable s (s.regs.sp - 1) = true)
    (hlo : writable s (s.regs.sp - 2) = true) (he : exec i s = (callTo a s).finish T) :
    completes i s { s.regs with sp := s.regs.sp - 2, pc := a }
      [(s.regs.sp - 1, hi s.regs.pc), (s.regs.sp - 2, lo s.regs.pc)] T :=
  have ⟨hram, hflash, hnormal⟩ := Consistent.parts hs
  (callTo_does hram hflash hnormal hhi hlo a).completes_finish he

variable (hlo : readable s s.regs.sp = true) (hhi : readable s (s.regs.sp + 1) = true)
include hlo hhi

theorem completes_returnTo (he : exec i s = (returnTo s).finish T) :
    completes i s { s.regs with sp := s.regs.sp + 2, pc := wordAt s s.regs.sp } [] T :=
  (returnTo_does hlo hhi).completes_finish he

theorem completes_returnFromInterrupt (he : exec i s = (returnFromInterrupt s).finish T) :
    completes i s { s.regs with sp := s.regs.sp + 2, pc := wordAt s s.regs.sp, iff1 := s.regs.iff2 } [] T :=
  (returnFromInterrupt_does hlo hhi).completes_finish he

end

/-- The address of a restart (48_jump_call_return R470). -/
theorem setWidth_shiftLeft_three (t : BitVec 3) : t.setWidth 16 <<< 3 = BitVec.ofNat 16 (8 * t.toNat) := by
  decide +revert

/-- Settles O26: each call that is taken is one `callTo`, each return one `returnTo` or `returnFromInterrupt`. -/
theorem callsAndReturns : Obligations.CallsAndReturns := by
  intro s g pushed called returned
  refine ⟨fun hs hhi hlo => ⟨fun _ => completes_callTo hs hhi hlo rfl,
      fun _ _ hcc => completes_callTo hs hhi hlo (if_pos hcc), fun t => ?_⟩,
    fun hlo hhi => ⟨completes_returnTo hlo hhi rfl, fun _ hcc => completes_returnTo hlo hhi (if_pos hcc),
      completes_returnFromInterrupt hlo hhi rfl, completes_returnFromInterrupt hlo hhi rfl,
      fun _ => completes_returnFromInterrupt hlo hhi rfl⟩,
    fun _ hcc =>
      have hnot := Bool.eq_false_iff.mp hcc
      ⟨fun _ => completes_nop (if_neg hnot), completes_nop (if_neg hnot)⟩⟩
  rw [← setWidth_shiftLeft_three]
  exact completes_callTo hs hhi hlo rfl

end Sys2Proof.Machine
end

section
/-! PROOFS of the family 49_io: the port instructions and the block transfers, each first by what the transfer with the
port does and then for a port without an answer and for the latch. -/

namespace Sys2Proof.Machine

/-! ## The instructions that move one byte -/

section
variable {s : State} {p v : Byte} {pio : Pio} {log : List LogLine}

theorem completesWith_inAN
    (hp : portIn p s = .ok v { s with ctl := { s.ctl with bus := v }, pio := pio, log := log }) :
    completesWith (.inAN p) s { s.regs with a := v } [] 11 pio log 0 := by
  refine completesWith_of (b := v) ?_
  change ((portIn p s).andThen _).finish 11 = _
  rw [hp]
  rfl

/-- The flag byte after `IN r,(C)` or `IN F,(C)` of a byte. -/
def inFlagByte (v : Byte) (g : Regs) : Byte := (parityFlags v g.flags).byte

theorem completesWith_inFC
    (hp : portIn s.regs.c s = .ok v { s with ctl := { s.ctl with bus := v }, pio := pio, log := log }) :
    completesWith .inFC s { s.regs with f := inFlagByte v s.regs } [] 12 pio log 0 := by
  refine completesWith_of (b := v) ?_
  change (portInFlags s).finish 12 = _
  rw [portInFlags, hp]
  rfl

theorem completesWith_inRC
    (hp : portIn s.regs.c s = .ok v { s with ctl := { s.ctl with bus := v }, pio := pio, log := log }) (r : Reg8) :
    completesWith (.inRC r) s (({ s.regs with f := inFlagByte v s.regs } : Regs).set8 r v) [] 12 pio log 0 := by
  refine completesWith_of (b := v) ?_
  change ((portInFlags s).andThen _).finish 12 = _
  rw [portInFlags, hp]
  rfl

theorem completesWith_portOut {i : Instr} {T : Nat} (he : exec i s = (portOut p v s).finish T)
    (hp : portOut p v s = .ok () { s with ctl := { s.ctl with bus := v }, pio := pio, log := log }) :
    completesWith i s s.regs [] T pio log 0 := by
  rw [hp] at he
  exact completesWith_of (b := v) he

end

theorem dispatchPort_refused {s : State} {p : Byte} {d : Device} (hdev : deviceAt s p = some d)
    (h : ¬(d.active = true ∧ (d.protectedPort = false ∨ portProtectRule s = true))) : dispatchPort p s = .ok () s := by
  have hcond : ¬(d.active && portAllowed d s) = true := by simpa [portAllowed] using h
  simp only [dispatchPort, hdev]
  rw [if_neg hcond]

/-- Settles O27: each of these instructions is one transfer, with nobody at the port. -/
theorem silentPorts : Obligations.SilentPorts := by
  refine ⟨?_, fun s p d hdev => or_iff_not_imp_left.mpr (dispatchPort_refused hdev)⟩
  intro s hin hout g cached flagged
  refine ⟨fun n hempty => ?_, fun hempty => ?_⟩
  · exact ⟨completesWith_inAN (portIn_empty hempty hin), completesWith_portOut rfl (portOut_empty hempty hout)⟩
  · have hflags : inFlagByte 0xFF g = flagged := congrArg Flags.byte (parityFlags_eq 0xFF g.flags)
    rw [← hflags]
    exact ⟨fun r => completesWith_inRC (portIn_empty hempty hin) r, completesWith_inFC (portIn_empty hempty hin),
      fun _ => completesWith_portOut rfl (portOut_empty hempty hout),
      completesWith_portOut rfl (portOut_empty hempty hout)⟩

/-- Settles O28: each of these instructions is one transfer with the latch. -/
theorem answeringPorts : Obligations.AnsweringPorts := by
  intro s v hin hout g cached given flagged
  refine ⟨fun n hlatch => ?_, fun hlatch => ?_⟩
  · exact ⟨completesWith_inAN (portIn_latch hlatch hin hout),
      completesWith_portOut rfl (portOut_latch g.a hlatch hin hout)⟩
  · have hflags : inFlagByte v g = flagged := congrArg Flags.byte (parityFlags_eq v g.flags)
    rw [← hflags]
    exact ⟨fun r => completesWith_inRC (portIn_latch hlatch hin hout) r,
      completesWith_inFC (portIn_latch hlatch hin hout),
      fun r => completesWith_portOut rfl (portOut_latch (g.get8 r) hlatch hin hout),
      completesWith_portOut rfl (portOut_latch 0 hlatch hin hout)⟩

/-! ## The block transfers -/

theorem blockIoFlagByte_z (s : State) : (blockIoFlagByte s).getLsbD 6 = (s.regs.b == 1) := by
  have hz : (blockIoFlagByte s).getLsbD 6 = (s.regs.b - 1 == 0) := congrArg Flags.z (Flags.ofByte_byte _)
  rw [hz, Bool.eq_iff_iff, beq_iff_eq, beq_iff_eq, sub_eq_zero]

section
variable {s : State} {ws : List (Word × Byte)} {pio : Pio} {log : List LogLine}

/-- A block transfer that repeats, said by `B` before it. -/
theorem Transfers.many_of_b {x : Res Unit} {step : Word} {f : Byte} {i : Instr}
    (h : Transfers s x (blockIoRegs step f s.regs) ws pio log) (he : exec i s = repeatWhile bLeft x) :
    completesWith i s
      (if s.regs.b = 1 then blockIoRegs step f s.regs
        else { blockIoRegs step f s.regs with pc := (blockIoRegs step f s.regs).pc - 2 })
      ws (if s.regs.b = 1 then 16 else 21) pio log 1 := by
  have hb : (blockIoRegs step f s.regs).b = 0 ↔ s.regs.b = 1 := sub_eq_zero
  simpa only [hb] using h.many he

/-- The four block transfers of one direction: `HL` up or down, once or repeated while `B` is not 0. -/
theorem Transfers.four {x : Word → Res Unit} {up down upMany downMany : Instr}
    (h : ∀ step, Transfers s (x step) (blockIoRegs step (blockIoFlagByte s) s.regs) ws pio log)
    (hup : exec up s = (x 1).finish 16) (hdown : exec down s = (x (-1)).finish 16)
    (hupMany : exec upMany s = repeatWhile bLeft (x 1)) (hdownMany : exec downMany s = repeatWhile bLeft (x (-1))) :
    let again (r : Regs) : Regs := if s.regs.b = 1 then r else { r with pc := r.pc - 2 }
    let T := if s.regs.b = 1 then 16 else 21
    let does (i : Instr) (r : Byte → Regs) (T : Nat) : Prop :=
      ∃ f : Byte, f.getLsbD 6 = (s.regs.b == 1) ∧ completesWith i s (r f) ws T pio log 1
    does up (fun f => blockIoRegs 1 f s.regs) 16 ∧ does down (fun f => blockIoRegs (-1) f s.regs) 16 ∧
      does upMany (fun f => again (blockIoRegs 1 f s.regs)) T ∧
      does downMany (fun f => again (blockIoRegs (-1) f s.regs)) T :=
  have hz := blockIoFlagByte_z s
  ⟨⟨_, hz, (h 1).once hup⟩, ⟨_, hz, (h (-1)).once hdown⟩, ⟨_, hz, (h 1).many_of_b hupMany⟩,
    ⟨_, hz, (h (-1)).many_of_b hdownMany⟩⟩

end

theorem emptyPort_congr {s u : State} (h : u.pio = s.pio) (p : Byte) : emptyPort u p = emptyPort s p := by
  rw [emptyPort, emptyPort, deviceAt, deviceAt, h]

theorem latchAt_congr {s u : State} (h : u.pio = s.pio) (p v : Byte) : latchAt u p v = latchAt s p v := by
  rw [latchAt, latchAt, deviceAt, deviceAt, h]

/-- Settles O29: each of these instructions is one block transfer with nobody at the port. -/
theorem blockIo : Obligations.BlockIo := by
  intro s hin hout hempty g T after again flagged
  refine ⟨fun hs hwrite => ?_, fun hread => ?_⟩
  · obtain ⟨hram, hflash, -⟩ := Consistent.parts hs
    exact Transfers.four (blockIn_transfers hram hflash hwrite (portIn_empty hempty hin)) rfl rfl rfl rfl
  · refine Transfers.four (blockOut_transfers (k := (.noAnswerOut g.c :: ·)) hread fun u hpio _ huout => ?_) rfl rfl
      rfl rfl
    rw [portOut_empty ((emptyPort_congr hpio _).trans hempty) (huout.trans hout), hpio]

/-- Settles O59: each of these instructions is one block transfer with the latch. -/
theorem answeringBlockIo : Obligations.AnsweringBlockIo := by
  intro s v hin hout hlatch g T after again flagged
  refine ⟨fun hs hwrite => ?_, fun hread => ?_⟩
  · obtain ⟨hram, hflash, -⟩ := Consistent.parts hs
    exact Transfers.four (blockIn_transfers hram hflash hwrite (portIn_latch hlatch hin hout)) rfl rfl rfl rfl
  · refine Transfers.four (blockOut_transfers (k := id) hread fun u hpio huin huout => ?_) rfl rfl rfl rfl
    rw [portOut_latch _ ((latchAt_congr hpio _ v).trans hlatch) (huin.trans hin) (huout.trans hout), hpio]
    rfl

end Sys2Proof.Machine
end

section
/-! PROOFS of the family 60_exceptions: the delivery of interrupts in the three modes, and the polling chain. -/

namespace Sys2Proof.Machine

/-! ## The delivery of interrupts -/

/-- A taken request, `HALT` apart, by what its delivery does from the acknowledged state `a`. -/
theorem deliverIfDue_taken {ran : Option Instr} {s a u : State} {g : Regs} {ws : List (Word × Byte)} {n : Nat}
    (hreq : s.ctl.interrupt = true) (hblock : s.ctl.eiBlock = false) (hiff : s.regs.iff1 = true)
    (ha : acknowledge ran s = a) (hdeliver : deliverInterrupt executeNoFetch ran s = .ok () u)
    (he : Effect a u g ws n) :
    deliverIfDue ran s = .ok () u ∧ u.ctl.halt = false ∧
      Effect s { u with ctl := { u.ctl with halt := s.ctl.halt } } g ws n := by
  subst ha
  refine ⟨?_, he.ofAcknowledge⟩
  rw [deliverIfDue, hreq, hblock, hiff]
  exact hdeliver

section
variable {ran : Option Instr} {s a : State} (ha : acknowledge ran s = a) (executeByte : Byte → State → Res Unit)
include ha

theorem deliverInterrupt_im0 (him : a.regs.im = .im0) :
    deliverInterrupt executeByte ran s = executeByte a.ctl.bus (addT a.cfg.im0Tstates a) := by
  simp only [deliverInterrupt, ha, him]

theorem deliverInterrupt_im2 (him : a.regs.im = .im2) : deliverInterrupt executeByte ran s = deliverIm2 a := by
  simp only [deliverInterrupt, ha, him]

end

/-- Settles O46: the acknowledgement, then a call of the vector. -/
theorem interruptMode1 : Obligations.InterruptMode1 := by
  intro ran s hs hreq hblock hiff him hhi hlo g f
  obtain ⟨u, hu, hawake, he⟩ := deliverIfDue_im1 hs hreq hblock hiff him hhi hlo ran
  rw [acknowledge_eq] at he
  exact ⟨u, hu, hawake, he⟩

/-- The delivery in mode 2, after the acknowledgement: the push, then the read of the table entry that the bus byte from
before the push selects. -/
theorem deliverIm2_effect {s : State} (hs : Consistent s = true) (hhi : writable s (s.regs.sp - 1) = true)
    (hlo : writable s (s.regs.sp - 2) = true) (htable : readable s (join s.regs.i s.ctl.bus) = true)
    (htable' : readable s (join s.regs.i s.ctl.bus + 1) = true) :
    ∃ u, deliverIm2 s = .ok () u ∧
      Effect s u { s.regs with sp := s.regs.sp - 2, pc := wordAt u (join s.regs.i s.ctl.bus) }
        [(s.regs.sp - 1, hi s.regs.pc), (s.regs.sp - 2, lo s.regs.pc)] s.cfg.im2Tstates := by
  obtain ⟨hram, hflash, hnormal⟩ := Consistent.parts hs
  obtain ⟨t, ht, hpush, -, -⟩ := push16_does hram hflash hnormal hhi hlo s.regs.pc
  have hi : t.regs.i = s.regs.i := by rw [hpush.regs]
  obtain ⟨x, hx, hread, -, -⟩ :=
    memRead16_does ((hpush.same.readable _).trans htable) ((hpush.same.readable _).trans htable')
  have hword : wordAt x (join s.regs.i s.ctl.bus) = wordAt t (join s.regs.i s.ctl.bus) := by
    rw [wordAt, wordAt, hread.byteAt_eq _ (by simp), hread.byteAt_eq _ (by simp)]
  refine ⟨addT s.cfg.im2Tstates (setPc (wordAt x (join s.regs.i s.ctl.bus)) x), ?_, ?_⟩
  · rw [deliverIm2, ht, andThen_ok, hi, hx, andThen_ok, hread.model.2, hpush.model.2, hword]
  · have heffect := ((hpush.trans hread (by simp)).thenRegs fun g =>
      { g with pc := wordAt x (join s.regs.i s.ctl.bus) }).thenT s.cfg.im2Tstates
    rw [hpush.regs, Nat.zero_add] at heffect
    exact heffect

/-- Settles O47: the acknowledgement, the push, and the read of the table entry. -/
theorem interruptMode2 : Obligations.InterruptMode2 := by
  intro ran s hs hreq hblock hiff him hhi hlo htable htable' g f
  have hack := acknowledge_eq ran s
  have hacked := consistent_acknowledge hs ran
  have hsame := acknowledge_same ran s
  rw [hack] at hacked hsame
  obtain ⟨u, hu, he⟩ := deliverIm2_effect hacked ((hsame.writable _).trans hhi) ((hsame.writable _).trans hlo)
    ((hsame.readable _).trans htable) ((hsame.readable _).trans htable')
  exact ⟨u, deliverIfDue_taken hreq hblock hiff hack ((deliverInterrupt_im2 hack _ him).trans hu) he⟩

theorem setPfx_eq_self {p : Pfx} {s : State} (h : s.ctl.pfx = p) : setPfx p s = s := by
  subst h
  rfl

/-- The byte of a restart selects it, and it fetches no operand. -/
theorem routeFrom_rst {s : State} (hpfx : s.ctl.pfx = .none) (turns : Nat) (t : BitVec 3) :
    routeFrom (turns + 1) 0 (0b11#2 ++ t ++ 0b111#3) s = .ok (.rst t, 0) s := by
  have hroute : routeOf (0b11#2 ++ t ++ 0b111#3) = .base := by decide +revert
  have hentry : baseEntry .none (0b11#2 ++ t ++ 0b111#3) = .done (.rst t) := by
    rcases bitVec3_cases t with rfl | rfl | rfl | rfl | rfl | rfl | rfl | rfl <;> rfl
  simp only [routeFrom, hroute, hpfx, hentry, fetchOperands, andThen_ok]

/-- The byte of a restart executed without a fetch is a call of its address, in 11 T-states. -/
theorem executeNoFetch_rst {s : State} (hs : Consistent s = true) (hpfx : s.ctl.pfx = .none)
    (hhi : writable s (s.regs.sp - 1) = true) (hlo : writable s (s.regs.sp - 2) = true) (t : BitVec 3) :
    ∃ u, executeNoFetch (0b11#2 ++ t ++ 0b111#3) s = .ok () u ∧
      Effect s u { s.regs with sp := s.regs.sp - 2, pc := BitVec.ofNat 16 (8 * t.toNat) }
        [(s.regs.sp - 1, hi s.regs.pc), (s.regs.sp - 2, lo s.regs.pc)] 11 := by
  obtain ⟨u, hexec, he⟩ : completes (.rst t) s _ _ 11 := completes_callTo hs hhi hlo rfl
  rw [setWidth_shiftLeft_three] at he
  have hpfx' : (addT 0 u).ctl.pfx = .none := by rw [addT_ctl, he.control, hpfx]
  have hredundant : redundantPrefixes 0 (.rst t) = 0 := by simp [redundantPrefixes]
  refine ⟨addT 0 u, ?_, he.thenT 0⟩
  rw [executeNoFetch, setPfx_eq_self hpfx, execute, routeFrom_rst hpfx, andThen_ok, hexec, hredundant]
  exact congrArg (Res.ok ()) (setPfx_eq_self hpfx')

/-- The delivery in mode 0, after the acknowledgement: some T-states, then the restart that the bus byte is. -/
theorem deliverIm0_effect {s : State} {t : BitVec 3} (hs : Consistent s = true) (hpfx : s.ctl.pfx = .none)
    (hbus : s.ctl.bus = 0b11#2 ++ t ++ 0b111#3) (hhi : writable s (s.regs.sp - 1) = true)
    (hlo : writable s (s.regs.sp - 2) = true) (n : Nat) :
    ∃ u, executeNoFetch s.ctl.bus (addT n s) = .ok () u ∧
      Effect s u { s.regs with sp := s.regs.sp - 2, pc := BitVec.ofNat 16 (8 * t.toNat) }
        [(s.regs.sp - 1, hi s.regs.pc), (s.regs.sp - 2, lo s.regs.pc)] (n + 11) := by
  obtain ⟨u, hu, he⟩ := executeNoFetch_rst (s := addT n s) hs hpfx hhi hlo t
  have heffect := ((Effect.refl s).thenT n).trans he (by simp)
  rw [Nat.zero_add] at heffect
  exact ⟨u, hbus ▸ hu, heffect⟩

/-- Settles O45: the acknowledgement, `IM0_TSTATES`, and the restart that the bus byte is. -/
theorem interruptMode0 : Obligations.InterruptMode0 := by
  intro ran s t hs hreq hblock hiff him hpfx hbus hhi hlo g f
  have hack := acknowledge_eq ran s
  have hacked := consistent_acknowledge hs ran
  have hsame := acknowledge_same ran s
  rw [hack] at hacked hsame
  obtain ⟨u, hu, he⟩ := deliverIm0_effect hacked hpfx hbus ((hsame.writable _).trans hhi) ((hsame.writable _).trans hlo)
    s.cfg.im0Tstates
  exact ⟨u, deliverIfDue_taken hreq hblock hiff hack ((deliverInterrupt_im0 hack _ him).trans hu) he⟩

/-! ## The polling chain -/

theorem setEntry_eq_self {s : State} {e : IntEntry} (h : s.pio.intEntries = [e]) : setEntry 0 e s = s := by
  have hset : s.pio.intEntries.set 0 e = s.pio.intEntries := by rw [h]; rfl
  rw [setEntry, hset]

theorem setEntry_setEntry (i : Nat) (e e' : IntEntry) (s : State) :
    setEntry i e' (setEntry i e s) = setEntry i e' s := by
  simp only [setEntry, List.set_set]

theorem pollTimes_succ (n : Nat) (s : State) :
    pollTimes (n + 1) s = (pollTimes n s).andThen fun _ t => pollInterrupts t := by
  induction n generalizing s with
  | zero =>
    rw [pollTimes, pollTimes, andThen_ok]
    cases pollInterrupts s <;> rfl
  | succ n ih =>
    rw [pollTimes, pollTimes]
    cases pollInterrupts s with
    | ok v t => exact ih t
    | fault f => rfl
    | refused r => rfl

/-- The poll of the one entry of the chain, not yet due, counts it down. -/
theorem pollInterrupts_wait {s : State} {e : IntEntry} (hentries : s.pio.intEntries = [e]) (hwait : 1 < e.skipCount) :
    pollInterrupts s = .ok () (setEntry 0 { e with skipCount := e.skipCount - 1 } s) := by
  have hdue : ¬e.skipCount ≤ 1 := Nat.not_le.mpr hwait
  simp [pollInterrupts, hentries, pollFrom, pollEntry, hdue]

/-- Polls of the one entry of the chain before it is due count it down, and do nothing else. -/
theorem pollTimes_wait {s : State} {e : IntEntry} {k : Nat} (hentries : s.pio.intEntries = [e])
    (hwait : k < e.skipCount) :
    pollTimes k s = .ok () (setEntry 0 { e with skipCount := e.skipCount - k } s) := by
  induction k generalizing s e with
  | zero => exact congrArg (Res.ok ()) (setEntry_eq_self hentries).symm
  | succ k ih =>
    have hnext : (setEntry 0 { e with skipCount := e.skipCount - 1 } s).pio.intEntries =
        [{ e with skipCount := e.skipCount - 1 }] := by rw [setEntry_pio, hentries]; rfl
    rw [pollTimes, pollInterrupts_wait hentries (by omega), andThen_ok, ih hnext (Nat.lt_sub_of_add_lt hwait),
      setEntry_setEntry, Nat.sub_sub, Nat.add_comm]

/-- Settles O49: all polls but the last count the entry down, and the last one finds it due. -/
theorem pollPeriod : Obligations.PollPeriod := by
  intro s e d vec hpos hcount hentries hdev hactive hkind hin hout hquiet
  have hchain (e' : IntEntry) : (setEntry 0 e' s).pio.intEntries = [e'] := by rw [setEntry_pio, hentries]; rfl
  refine ⟨fun k hk => ⟨_, pollTimes_wait hentries (hcount ▸ hk), hquiet, ?_⟩, ?_⟩
  · rw [hchain, hcount]
  · have hlast : pollTimes (e.skipFactor - 1) s = .ok () (setEntry 0 { e with skipCount := 1 } s) := by
      have h := pollTimes_wait (k := e.skipFactor - 1) hentries (by omega)
      rwa [hcount, Nat.sub_sub_self hpos] at h
    have hfire := pollTimes_succ (e.skipFactor - 1) s
    rw [Nat.sub_add_cancel hpos, hlast, andThen_ok, pollInterrupts_irq (s := setEntry 0 { e with skipCount := 1 } s) hin
      hout (hchain _) le_rfl hdev hactive hkind] at hfire
    refine ⟨_, hfire, rfl, ?_⟩
    have hfull : { e with skipCount := e.skipFactor } = e := congrArg (fun n => { e with skipCount := n }) hcount.symm
    change (s.pio.intEntries.set 0 _).set 0 { e with skipCount := e.skipFactor } = [e]
    rw [hfull, List.set_set, hentries]
    rfl

end Sys2Proof.Machine
end

section
/-! PROOFS of the family 70_reset_and_hazards: a halted CPU that takes no interrupts, and `Reset()`. -/

namespace Sys2Proof.Machine

/-! ## The polls where no agent of unknown behaviour is present and no transfer is under way -/

/-- `t` is `s` but for the interrupt request, the bus byte and the polling chain. -/
def OnlyPolled (s t : State) : Prop :=
  ∃ (request : Bool) (bus : Byte) (entries : List IntEntry),
    t = { s with ctl := { s.ctl with interrupt := request, bus := bus },
                 pio := { s.pio with intEntries := entries } }

theorem OnlyPolled.refl (s : State) : OnlyPolled s s := ⟨_, _, _, rfl⟩

theorem OnlyPolled.trans {s t u : State} (h : OnlyPolled s t) (h' : OnlyPolled t u) : OnlyPolled s u := by
  obtain ⟨_, _, _, rfl⟩ := h
  obtain ⟨_, _, _, rfl⟩ := h'
  exact ⟨_, _, _, rfl⟩

theorem OnlyPolled.setEntry (i : Nat) (e : IntEntry) (s : State) : OnlyPolled s (setEntry i e s) := ⟨_, _, _, rfl⟩

theorem OnlyPolled.tame {s t : State} (h : OnlyPolled s t) : tame t = tame s := by
  obtain ⟨_, _, _, rfl⟩ := h
  rfl

theorem OnlyPolled.quiet {s t : State} (h : OnlyPolled s t) (hquiet : Quiet s) : Quiet t := by
  obtain ⟨_, _, _, rfl⟩ := h
  exact hquiet

theorem setInput_eq_self {v : Bool} {s : State} (h : s.ctl.input = v) : setInput v s = s := by
  subst h
  rfl

theorem setOutput_eq_self {v : Bool} {s : State} (h : s.ctl.output = v) : setOutput v s = s := by
  subst h
  rfl

theorem endTransfer_eq_self {s : State} (h : Quiet s) : endTransfer s = s :=
  calc endTransfer s
    _ = setInput false (setOutput false s) := rfl
    _ = s := by rw [setOutput_eq_self h.2, setInput_eq_self h.1]

/-- Of the devices whose behaviour the model gives, only the interrupt source does anything outside a transfer. -/
theorem deviceRun_quiet {d : Device} {s : State} (hknown : d.kind.known = true) (hquiet : Quiet s) :
    ∃ t, d.run s = .ok () t ∧ OnlyPolled s t := by
  obtain ⟨hin, hout⟩ := hquiet
  cases hk : d.kind with
  | latch => exact ⟨s, by simp [Device.run, hk, hin, hout], .refl s⟩
  | irq vec =>
    have hrun : d.run s = .ok () { s with ctl := { s.ctl with interrupt := true, bus := vec } } := by
      simp [Device.run, hk, hin, hout]
    exact ⟨_, hrun, _, _, _, rfl⟩
  | lock => exact ⟨s, by simp [Device.run, hk, hout], .refl s⟩
  | uninterpreted k => rw [hk] at hknown; cases hknown

theorem known_of_deviceAt {s : State} {p : Byte} {d : Device} (htame : tame s = true) (hdev : deviceAt s p = some d) :
    d.kind.known = true := by
  simp only [tame, Bool.and_eq_true, List.all_eq_true] at htame
  exact htame.2 d (deviceAt_mem hdev)

section
variable {s : State} (htame : tame s = true) (hquiet : Quiet s)
include htame hquiet

theorem runDevice_quiet (p : Byte) : ∃ t, runDevice p s = .ok () t ∧ OnlyPolled s t := by
  unfold runDevice
  split
  case h_1 => exact ⟨s, rfl, .refl s⟩
  case h_2 d hdev =>
    split
    · exact deviceRun_quiet (known_of_deviceAt htame hdev) hquiet
    · exact ⟨s, rfl, .refl s⟩

theorem pollDevice_quiet (p : Byte) : ∃ t, pollDevice p s = .ok () t ∧ OnlyPolled s t := by
  obtain ⟨t, hrun, hpolled⟩ := runDevice_quiet htame hquiet p
  refine ⟨t, ?_, hpolled⟩
  rw [pollDevice, hrun, andThen_ok, endTransfer_eq_self (hpolled.quiet hquiet)]

theorem pollEntry_quiet (i : Nat) : ∃ t, pollEntry i s = .ok () t ∧ OnlyPolled s t := by
  unfold pollEntry
  split
  case h_1 => exact ⟨s, rfl, .refl s⟩
  case h_2 e _ =>
    split
    · obtain ⟨t, hpoll, hpolled⟩ := pollDevice_quiet htame hquiet e.value
      rw [hpoll]
      exact ⟨_, rfl, hpolled.trans (.setEntry i _ t)⟩
    · exact ⟨_, rfl, .setEntry i _ s⟩

theorem pollFrom_quiet (n i : Nat) : ∃ t, pollFrom n i s = .ok () t ∧ OnlyPolled s t := by
  induction n generalizing i s with
  | zero => exact ⟨s, rfl, .refl s⟩
  | succ n ih =>
    obtain ⟨t, hentry, hpolled⟩ := pollEntry_quiet htame hquiet i
    obtain ⟨u, hrest, hpolled'⟩ := ih (hpolled.tame.trans htame) (hpolled.quiet hquiet) (i + 1)
    refine ⟨u, ?_, hpolled.trans hpolled'⟩
    rw [pollFrom, hentry, andThen_ok, hrest]

end

/-! ## A halted CPU with interrupts disabled -/

/-- Settles O50: the halted tick, polls that can only raise a request, and no delivery of it. -/
theorem haltedForever : Obligations.HaltedForever := by
  intro s hended htame hidle
  obtain ⟨hhalt, hiff⟩ : s.ctl.halt = true ∧ s.regs.iff1 = false := by simpa [runEnded] using hended
  obtain ⟨-, hquiet⟩ := idle_iff.mp hidle
  obtain ⟨t, hpoll, request, bus, entries, ht⟩ :=
    pollFrom_quiet (s := haltedTick (historyAppend (clearStepFlags s))) htame hquiet s.pio.intEntries.length 0
  have hdisabled : t.regs.iff1 = false := by rw [ht]; exact hiff
  have hdeliver := interruptNotTaken.1 none t (.inr (.inr hdisabled))
  obtain ⟨dbg, hprofile⟩ := profileIfEnabled_eq s.regs.pc s.timer.tstates t
  refine ⟨_, step_halted hhalt hpoll hdeliver, ?_⟩
  rw [hprofile, ht]
  exact ⟨hended, htame, idle_iff.mpr ⟨rfl, hquiet⟩, rfl, rfl, rfl⟩

/-! ## Construction and `Reset()` -/

theorem resetCpu_flashEra {s : State} (h : s.cfg.modelClass = .flashEra) :
    resetCpu s = .ok () (resetTo (BankTable.flashEra s.cfg.flashPages) s) := by
  rw [resetCpu, h]

theorem resetCpu_preFlash {s : State} (h : s.cfg.modelClass = .preFlash) :
    resetCpu s = .ok () (resetTo (BankTable.preFlash s.cfg.resetMapPreFlash) s) := by
  rw [resetCpu, h]

theorem resetCpu_unrecognized {s : State} (h : s.cfg.modelClass = .unrecognized) :
    resetCpu s = .refused .unrecognizedModel := by
  rw [resetCpu, h]

theorem powerOn_flashEra {c : Config} (devices : List Device) (entries : List (Byte × Nat))
    (h : c.modelClass = .flashEra) :
    State.powerOn c devices entries =
      .next (resetTo (BankTable.flashEra c.flashPages) (State.init c devices entries)) := by
  rw [State.powerOn, resetCpu_flashEra h]
  rfl

/-- Settles O51: `Reset()` is `resetTo` the bank table of the model class, whose fields are read off; a constructed core
is that of `State.init`. -/
theorem resetState : Obligations.ResetState := by
  refine ⟨fun s h => ⟨_, resetCpu_flashEra h, fun r => by cases r <;> rfl, ?_⟩,
    fun s h => ⟨_, resetCpu_preFlash h, rfl, rfl, rfl, rfl, rfl⟩, fun s h => resetCpu_unrecognized h,
    fun c devices entries h =>
      ⟨_, powerOn_flashEra devices entries h, rfl, rfl, fun isRam p => by cases isRam <;> rfl, ?_⟩,
    powerOn_standard, rfl⟩
  · and_intros <;> rfl
  · and_intros <;> rfl

end Sys2Proof.Machine
end
